-- ==== Sys2Proof/Word.lean ====
section
/-! DEFINITION. The word types of 00_scope.md R5. -/

namespace Sys2Proof

/-- A clock value, an instant or a duration in microseconds (R5: 32 bits, unsigned). -/
abbrev U32 := BitVec 32

/-- The frame shift register (R5, R23). -/
abbrev FrameWord := BitVec 40

/-- The FSM state code (R5, R70). -/
abbrev StCode := BitVec 4

/-- The 6-bit word that selects the row a step performs: bit 5 is `rst`, bit 4 is `req`, bits 3..0 are
`st` (opcode_table.json, row DECODE; R73). -/
abbrev FetchWord := BitVec 6

/-- One byte of the frame (R23), or of a byte stream holding fetch words. -/
abbrev Byte := BitVec 8

end Sys2Proof
end

