-- ==== Sys2Proof/Config.lean ====
section
/-! DEFINITION. What an implementation fixes (the protocol constants of 00_scope.md R4), the input sample
of a step (R6) and the free value the environment supplies. -/

namespace Sys2Proof

/-- R4: the protocol constants. The defaults are R4's table. UNVERIFIED (unsafe): the spec calls these
literals unaudited and the value of `tBitTimeout` its own decision D8; log 7. -/
structure Cfg where
  /-- `T_START_LOW`, microseconds: the line is driven low at least this long. -/
  tStartLow : Nat := 18000
  /-- `T_START_HIGH`, microseconds: then driven high at least this long. -/
  tStartHigh : Nat := 30
  /-- `T_HS_TIMEOUT`, microseconds: the timeout of each handshake wait. -/
  tHsTimeout : Nat := 100
  /-- `T_BIT_TIMEOUT`, microseconds: the timeout of each rise wait and each fall wait. -/
  tBitTimeout : Nat := 100
  /-- `T_BIT_THRESHOLD`, microseconds: a pulse strictly longer than this is a 1. -/
  tBitThreshold : Nat := 40
  /-- `N_BITS`: bits per frame. -/
  nBits : Nat := 40
  deriving DecidableEq, Repr

/-- R6: the inputs one step samples (`clk` is the step itself, R31). -/
structure Inputs where
  /-- synchronous reset, R230 -/
  rst : Bool
  /-- the DECODE command bit, R73 -/
  req : Bool
  /-- the sampled level of the line, `true` is 1 (high), R51 -/
  line : Bool
  /-- the clock `now_us`, R53 -/
  now : U32
  deriving DecidableEq, Repr, Inhabited

/-- FREE VALUE: the samples the environment produces once `State.pending` has run out. R6: the environment
produces every input, so nothing constrains it; no value of it can be proved. DESIGN CHOICE (safe), log 1. -/
opaque Config.freeInputs : Nat → Inputs

end Sys2Proof
end

