-- ==== Sys2Proof/Syntax.lean ====
section
/-! DEFINITION. The instructions: one constructor per row of spec/opcode_table.json, and the names the rules
use for state codes (R70) and outcomes (R72). -/

namespace Sys2Proof

/-- The eleven rows of opcode_table.json: ten micro-operations and the command DECODE (R84). No row has an
operand (R73: the command carries no operand). -/
inductive Instr where
  /-- IDLE with no request, R102 -/
  | idle
  /-- R122 -/
  | startLow
  /-- R123 -/
  | startHigh
  /-- R124 -/
  | hsWaitLow1
  /-- R125 -/
  | hsWaitHigh
  /-- R126 -/
  | hsWaitLow2
  /-- R150 -/
  | bitWaitRise
  /-- R151 -/
  | bitWaitFall
  /-- R181 -/
  | validate
  /-- R182 -/
  | convert
  /-- the command DECODE, R101 -/
  | decode
  deriving DecidableEq, Repr

/-- The ten states that have a code (R21, R70). A rule writes `st` only through one of these names. -/
inductive FsmState where
  | idle | startLow | startHigh | hsWaitLow1 | hsWaitHigh | hsWaitLow2
  | bitWaitRise | bitWaitFall | validate | convert
  deriving DecidableEq, Repr

/-- The value of the `outcome` register (R25, R72). -/
inductive CallOutcome where
  /-- `NONE`: no call has finished since reset, or a call is in progress -/
  | none
  /-- `OK`: the last call validated its frame -/
  | ok
  /-- `TIMEOUT`: the last call ended because a wait timed out -/
  | timeout
  /-- `CHECKSUM`: the last call's checksum did not match -/
  | checksum
  deriving DecidableEq, Repr

end Sys2Proof
end

