-- ==== Sys2Proof/WellFormed.lean ====
section
/-! DEFINITION. Well-formedness of instructions and of the configuration record. -/

namespace Sys2Proof

/-- No row of opcode_table.json has an operand field, so there is nothing about an instruction that could be
ill-formed: every constructor is an instruction of the block. -/
def Instr.wellFormed : Instr → Bool
  | .idle | .startLow | .startHigh | .hsWaitLow1 | .hsWaitHigh | .hsWaitLow2
  | .bitWaitRise | .bitWaitFall | .validate | .convert | .decode => true

/-- Every time constant is comparable with a u32 duration (R5, R53). -/
def Cfg.timesFit (c : Cfg) : Bool :=
  [c.tStartLow, c.tStartHigh, c.tHsTimeout, c.tBitTimeout, c.tBitThreshold].all fun t => decide (t < 2 ^ 32)

/-- The bit count fits the 40-bit frame register, hence the 6-bit counter (R5), and is not zero (R155). -/
def Cfg.bitsFit (c : Cfg) : Bool :=
  decide (1 ≤ c.nBits) && decide (c.nBits ≤ 40)

/-- A configuration the block of R5's widths can hold. -/
def Cfg.wellFormed (c : Cfg) : Bool := c.timesFit && c.bitsFit

end Sys2Proof
end

