-- ==== Sys2Proof/Decode.lean ====
section
/-! DEFINITION. The codes of 30_encoding.md and the decoder of the 6-bit word {rst, req, st}; after it the
encoder, written from the rows of opcode_table.json. -/

namespace Sys2Proof

/-! ### Codes -/

/-- R70: the code of each state. -/
def FsmState.code : FsmState → StCode
  | .idle => 0b0000
  | .startLow => 0b0001
  | .startHigh => 0b0010
  | .hsWaitLow1 => 0b0011
  | .hsWaitHigh => 0b0100
  | .hsWaitLow2 => 0b0101
  | .bitWaitRise => 0b0110
  | .bitWaitFall => 0b0111
  | .validate => 0b1000
  | .convert => 0b1001

/-- R70, R71: the state a code names; codes 10 to 15 are reserved and name none. -/
def FsmState.ofCode (c : StCode) : Option FsmState :=
  match c.toNat with
  | 0 => some .idle
  | 1 => some .startLow
  | 2 => some .startHigh
  | 3 => some .hsWaitLow1
  | 4 => some .hsWaitHigh
  | 5 => some .hsWaitLow2
  | 6 => some .bitWaitRise
  | 7 => some .bitWaitFall
  | 8 => some .validate
  | 9 => some .convert
  | _ => none

/-- R72: the 2-bit outcome code. -/
def CallOutcome.code : CallOutcome → BitVec 2
  | .none => 0b00
  | .ok => 0b01
  | .timeout => 0b10
  | .checksum => 0b11

/-! ### Decoder -/

/-- Why a fetch word is no row of the table. -/
inductive WordReject where
  /-- `rst = 1`: the step performs no row but the reset of R230 (R100, R204 item 1) -/
  | resetAsserted
  /-- `st` holds a reserved code (R71) -/
  | reservedState (code : StCode)
  deriving DecidableEq, Repr

/-- Why a byte stream does not begin with a fetch word of a row. -/
inductive ByteReject where
  /-- there is no byte -/
  | noByte
  /-- bit 7 or bit 6 is set: a fetch word has six bits (log 4) -/
  | unusedBits (b : Byte)
  /-- the six bits are no row -/
  | word (r : WordReject)
  deriving DecidableEq, Repr

/-- The word {rst, req, st[3:0]} (R73 and the row DECODE of opcode_table.json). -/
def fetchWordOf (rst req : Bool) (st : StCode) : FetchWord :=
  BitVec.ofBool rst ++ BitVec.ofBool req ++ st

/-- Bit 5 of a fetch word. -/
def FetchWord.rstBit (w : FetchWord) : Bool := w.getLsbD 5

/-- Bit 4 of a fetch word. -/
def FetchWord.reqBit (w : FetchWord) : Bool := w.getLsbD 4

/-- Bits 3..0 of a fetch word. -/
def FetchWord.stBits (w : FetchWord) : StCode := w.extractLsb' 0 4

/-- R100: the row a step performs, from `rst`, `req` and `st`. `req` matters in IDLE only (R73, R103). -/
def decodeWord (w : FetchWord) : Except WordReject Instr :=
  if FetchWord.rstBit w then .error .resetAsserted
  else
    match FsmState.ofCode (FetchWord.stBits w) with
    | none => .error (.reservedState (FetchWord.stBits w))
    | some .idle => .ok (if FetchWord.reqBit w then .decode else .idle)
    | some .startLow => .ok .startLow
    | some .startHigh => .ok .startHigh
    | some .hsWaitLow1 => .ok .hsWaitLow1
    | some .hsWaitHigh => .ok .hsWaitHigh
    | some .hsWaitLow2 => .ok .hsWaitLow2
    | some .bitWaitRise => .ok .bitWaitRise
    | some .bitWaitFall => .ok .bitWaitFall
    | some .validate => .ok .validate
    | some .convert => .ok .convert

/-- Fetch words held one a byte, bits 7 and 6 zero (DESIGN CHOICE, safe, log 4): the first instruction and the rest. -/
def decodeBytes : List Byte → Except ByteReject (Instr × List Byte)
  | [] => .error .noByte
  | b :: rest =>
    if b.extractLsb' 6 2 = 0 then
      match decodeWord (b.extractLsb' 0 6) with
      | .ok i => .ok (i, rest)
      | .error r => .error (.word r)
    else .error (.unusedBits b)

/-- The instruction the decoder reads from a table word of `nbits` bits (whole bytes) whose value is `w`;
`none` where it refuses, and where `w` has a bit at or above `nbits` or beyond the one byte of a fetch word. -/
def decodeTableWord (nbits w : Nat) : Option Instr :=
  if w < 2 ^ nbits ∧ w < 256 then
    match decodeBytes [BitVec.ofNat 8 w] with
    | .ok (i, _) => some i
    | .error _ => none
  else none

/-! ### Encoder -/

/-- A row of opcode_table.json: its `mask` and `match`, over the 6-bit fetch word (R84). -/
structure OpcodeRow where
  mask : FetchWord
  value : FetchWord
  deriving DecidableEq, Repr

/-- The rows of opcode_table.json, `match` and `mask` as the table gives them (R84). -/
def opcodeRow : Instr → OpcodeRow
  | .idle => ⟨15, 0⟩
  | .startLow => ⟨15, 1⟩
  | .startHigh => ⟨15, 2⟩
  | .hsWaitLow1 => ⟨15, 3⟩
  | .hsWaitHigh => ⟨15, 4⟩
  | .hsWaitLow2 => ⟨15, 5⟩
  | .bitWaitRise => ⟨15, 6⟩
  | .bitWaitFall => ⟨15, 7⟩
  | .validate => ⟨15, 8⟩
  | .convert => ⟨15, 9⟩
  | .decode => ⟨63, 16⟩

/-- The row's `condition` in opcode_table.json: `rst = 0` for every row, and `req = 0` for the row IDLE
(`req = 1` in IDLE is DECODE). -/
def rowCondition (i : Instr) (w : FetchWord) : Bool :=
  !FetchWord.rstBit w && (i != .idle || !FetchWord.reqBit w)

/-- The word is one of the words the table gives the row. -/
def rowAccepts (i : Instr) (w : FetchWord) : Bool :=
  decide (w &&& (opcodeRow i).mask = (opcodeRow i).value) && rowCondition i w

/-- The word of an instruction, the bits its row leaves free (`req` in a state other than IDLE) zero. -/
def encode (i : Instr) : FetchWord := (opcodeRow i).value

end Sys2Proof
end

