-- ==== Sys2Proof/Machine/State.lean ====
section
/-! DEFINITION. The state of the block (10_state.md R20), the environment's samples, the reasons a step can stop,
and the state after reset (R37). -/

namespace Sys2Proof.Machine

open Sys2Proof

/-- Why the machine stops with a fault. -/
inductive Fault where
  /-- `ReservedState` (R71, D27): raised by `step` when `rst = 0` and `st` holds a code 10 to 15, which R71 tells a
  model to treat as a fault. Safe: a fault refutes every claim, and no run from reset meets it (R21). -/
  | reservedState (code : StCode)
  deriving DecidableEq, Repr

/-- Why the machine refuses. -/
inductive Refusal where
  /-- An arm of `exec` whose instruction has no meaning yet; no arm raises it. Safe. -/
  | notModelled (mnemonic : String)
  deriving DecidableEq, Repr

/-- R20: "The block's state is exactly the following fields", `st` to `tmag`. The last three fields are the
model's own: the samples the environment presents (R6), held here because a step takes the state alone
(DESIGN CHOICE, safe, log 1). The block has no register file and no memory (R33, R50). -/
structure State where
  /-- the FSM state code (R21, R70); it plays the program counter (R34) -/
  st : StCode
  /-- the instant the current hold or wait state was entered (R22) -/
  tMark : U32
  /-- the bits received so far in this call, newest in bit 0 (R23) -/
  frame : FrameWord
  /-- how many bits this call has received (R24) -/
  bitcnt : BitVec 6
  /-- the outcome of the last finished call, or `NONE` (R25) -/
  outcome : CallOutcome
  /-- 1 for exactly the one step after a call finishes (R26) -/
  done : Bool
  /-- humidity of the last successful call, tenths of a percent (R27) -/
  hum : BitVec 16
  /-- temperature sign of the last successful call, 1 is negative (R27) -/
  tsign : Bool
  /-- temperature magnitude of the last successful call, tenths of a degree (R27) -/
  tmag : BitVec 15
  /-- the input ports at the coming step (R31) -/
  inp : Inputs
  /-- the samples of the steps after the coming one, nearest first -/
  pending : List Inputs
  /-- how many free samples have been drawn (`Config.freeInputs`) -/
  tick : Nat
  deriving DecidableEq, Repr

/-- R37: the reset values. DESIGN CHOICE (unsafe, log 2): the spec gives the input ports no reset value; here they read
idle (`rst = 0`, `req = 0`, the undriven line high, clock 0) and nothing is pending. -/
def State.reset : State where
  st := FsmState.idle.code
  tMark := 0
  frame := 0
  bitcnt := 0
  outcome := .none
  done := false
  hum := 0
  tsign := false
  tmag := 0
  inp := { rst := false, req := false, line := true, now := 0 }
  pending := []
  tick := 0

end Sys2Proof.Machine
end

