-- ==== Sys2Proof/Machine/Operands.lean ====
section
/-! DEFINITION. What a rule reads: the protocol constants, the line and the clock (R9), durations (R152, R153) and
the fields of the frame (R23, R74 to R77, R180, R183, R184). -/

namespace Sys2Proof.Machine

open Sys2Proof

/-- The constants at R4's values ("state every claim at the default"). -/
def cfg : Cfg := {}

/-! ### Line and clock -/

/-- `LineRead()` (R9, R51). -/
def State.lineRead (s : State) : Bool := s.inp.line

/-- `Now()` (R9, R53). -/
def State.now (s : State) : U32 := s.inp.now

/-- R152: `(t_f - t_r) mod 2^32`. -/
def duration (tr tf : U32) : U32 := tf - tr

/-- `elapsed(s.t_mark)` (R9, R53). -/
def State.elapsed (s : State) : U32 := duration s.tMark s.now

/-- R153: the pulse-width discriminator, strict and unsigned. -/
def bitval (d : U32) : Bool := decide (cfg.tBitThreshold < d.toNat)

/-! ### Frame -/

/-- R154: shift one classified bit into the frame from the right. -/
def shiftIn (frame : FrameWord) (b : Bool) : FrameWord :=
  (frame <<< 1) ||| (BitVec.ofBool b).setWidth 40

/-- R23: byte k of the frame, `frame[39 - 8k : 32 - 8k]`, for k = 0..4. -/
def frameByte (frame : FrameWord) (k : Nat) : Byte := frame.extractLsb' (32 - 8 * k) 8

/-- R180: the sum of bytes 0 to 3 in ten bits, low eight bits kept. -/
def csum (frame : FrameWord) : Byte :=
  ((frameByte frame 0).setWidth 10 + (frameByte frame 1).setWidth 10
    + (frameByte frame 2).setWidth 10 + (frameByte frame 3).setWidth 10).setWidth 8

/-- R180: the computed checksum is byte 4. -/
def checksumOk (frame : FrameWord) : Bool := csum frame == frameByte frame 4

/-- R183: `{B(0), B(1)}`. -/
def humValue (frame : FrameWord) : BitVec 16 := frameByte frame 0 ++ frameByte frame 1

/-- R184: `B(2)[7]`. -/
def tsignValue (frame : FrameWord) : Bool := (frameByte frame 2).getLsbD 7

/-- R184: `{B(2)[6:0], B(3)}`. -/
def tmagValue (frame : FrameWord) : BitVec 15 := (frameByte frame 2).extractLsb' 0 7 ++ frameByte frame 3

end Sys2Proof.Machine
end

