-- ==== Sys2Proof/Machine/Flags.lean ====
section
/-! DEFINITION. The status flags of R35: `busy`, `done` and `outcome`. No FSM rule uses any of them as a condition. -/

namespace Sys2Proof.Machine

open Sys2Proof

/-- R28: `busy = (st != IDLE)`. -/
def State.busy (s : State) : Bool := s.st != FsmState.idle.code

/-- R100: the default `done <- 0` every step that is no reset begins with; a finish of the same step overrides it. -/
def State.clearDone (s : State) : State := { s with done := false }

/-- The two flag writes of a finish: `outcome <- code` and `done <- 1` (R201). -/
def State.recordOutcome (code : CallOutcome) (s : State) : State := { s with outcome := code, done := true }

end Sys2Proof.Machine
end

