-- ==== Sys2Proof/Machine/Ops.lean ====
section
/-! DEFINITION. The named operations the rules share: moving `st`, HOLD and WAIT (R120, R121), the finish sequence
(R201, the analogue of taking an exception), the writes to the frame and the result registers, reset (R230),
and the environment presenting the next sample. -/

namespace Sys2Proof.Machine

open Sys2Proof

/-! ### Moving through the FSM -/

/-- `st <- n`. -/
def State.goto (n : FsmState) (s : State) : State := { s with st := n.code }

/-- `t_mark <- Now(); st <- n` (R22: every transition into a hold or wait state marks its instant). -/
def State.enter (n : FsmState) (s : State) : State := { s with tMark := s.now, st := n.code }

/-! ### Finishing a call -/

/-- R201, `finish(code)`: `outcome <- code; done <- 1; st <- IDLE`, and nothing else. There is no return from it
(R206): the next DECODE starts a new call. -/
def State.finish (code : CallOutcome) (s : State) : State := (s.recordOutcome code).goto .idle

/-- `raise Timeout()` (R9, R201). -/
def State.raiseTimeout (s : State) : State := s.finish .timeout

/-- `raise Checksum()` (R9, R201). -/
def State.raiseChecksum (s : State) : State := s.finish .checksum

/-! ### The two timing primitives -/

/-- The shape of R120 and R151: the level test first, then the strict timeout test, else no write. -/
def State.awaitLevel (level : Bool) (timeout : Nat) (onMatch : State → State) (s : State) : State :=
  if s.lineRead = level then onMatch s
  else if timeout < s.elapsed.toNat then s.raiseTimeout
  else s

/-- R120: WAIT(L, T, NEXT). -/
def State.wait (level : Bool) (timeout : Nat) (next : FsmState) (s : State) : State :=
  s.awaitLevel level timeout (State.enter next)

/-- R121: HOLD(T, NEXT). -/
def State.hold (time : Nat) (next : FsmState) (s : State) : State :=
  if time ≤ s.elapsed.toNat then s.enter next else s

/-! ### Writes to the call's registers -/

/-- R101: the clearing writes of DECODE. -/
def State.clearCall (s : State) : State :=
  { s with frame := 0, bitcnt := 0, outcome := .none, hum := 0, tsign := false, tmag := 0 }

/-- R151, R154: store one classified bit and count it (`bitcnt + 1` in six bits, R8; log 6). -/
def State.storeBit (b : Bool) (s : State) : State :=
  { s with frame := shiftIn s.frame b, bitcnt := s.bitcnt + 1 }

/-- R151, on the fall: classify the pulse, store its bit, mark the instant and go on (R155). -/
def State.endPulse (s : State) : State :=
  let s' := s.storeBit (bitval (duration s.tMark s.now))
  s'.enter (if s'.bitcnt.toNat = cfg.nBits then .validate else .bitWaitRise)

/-- R182: publish the reading of the frame. -/
def State.publish (s : State) : State :=
  { s with hum := humValue s.frame, tsign := tsignValue s.frame, tmag := tmagValue s.frame }

/-! ### Reset and the environment -/

/-- R230: every field of R20 at its reset value of R37; the environment's samples are no state of the block. -/
def State.applyReset (s : State) : State :=
  { State.reset with inp := s.inp, pending := s.pending, tick := s.tick }

/-- The environment presents the sample of the next step (R6): the nearest pending one, or a free value.
DESIGN CHOICE (safe), log 1. -/
def State.presentNext (s : State) : State :=
  match s.pending with
  | x :: xs => { s with inp := x, pending := xs }
  | [] => { s with inp := Config.freeInputs s.tick, tick := s.tick + 1 }

/-- What a step adds after the row it performed: the environment's next sample. -/
def presentAfter : Host.Outcome State Fault Refusal → Host.Outcome State Fault Refusal
  | .next s => .next s.presentNext
  | .fault r => .fault r
  | .refused r => .refused r

/-- R73: the word {rst, req, st} of the coming step. -/
def State.fetchWord (s : State) : FetchWord := fetchWordOf s.inp.rst s.inp.req s.st

/-- R100: what a step does when its word is no row: the reset of R230, or the fault ReservedState (R71). -/
def rejectedStep (s : State) : WordReject → Host.Outcome State Fault Refusal
  | .resetAsserted => .next s.applyReset
  | .reservedState code => .fault (.reservedState code)

/-- The state whose coming step performs the row of the table word `w`: its bits 3..0 in `st`, bit 4 on `req`,
bit 5 on `rst` (log 3, log 4). -/
def State.placeWord (s : State) (w : Nat) : State :=
  let word : FetchWord := BitVec.ofNat 6 w
  { s with st := FetchWord.stBits word
           inp := { s.inp with rst := FetchWord.rstBit word, req := FetchWord.reqBit word } }

end Sys2Proof.Machine
end

