-- ==== Sys2Proof/Machine/BitSampling.lean ====
section
/-! DEFINITION. The two bit-sampling waits (42_bit_sampling.md). -/

namespace Sys2Proof.Machine

open Sys2Proof

/-- R150: `WAIT(1, T_BIT_TIMEOUT, BIT_WAIT_FALL)`. -/
def execBitWaitRise (s : State) : Host.Outcome State Fault Refusal :=
  .next (s.clearDone.wait true cfg.tBitTimeout .bitWaitFall)

/-- R151: on the fall classify, store and count the bit; else time out or poll. -/
def execBitWaitFall (s : State) : Host.Outcome State Fault Refusal :=
  .next (s.clearDone.awaitLevel false cfg.tBitTimeout State.endPulse)

end Sys2Proof.Machine
end

