-- ==== Sys2Proof/Machine/Control.lean ====
section
/-! DEFINITION. The command and the idle row (40_control.md). -/

namespace Sys2Proof.Machine

open Sys2Proof

/-- R102, IDLE-HOLD: no write but the default `done <- 0`. -/
def execIdle (s : State) : Host.Outcome State Fault Refusal :=
  .next s.clearDone

/-- R101, DECODE: clear the call's registers, mark the instant, go to START_LOW. The rule's guard
(`st = IDLE`, `req = 1`) is the row's encoding, which the decoder tests (log 11). -/
def execDecode (s : State) : Host.Outcome State Fault Refusal :=
  .next (s.clearDone.clearCall.enter .startLow)

end Sys2Proof.Machine
end

