-- ==== Sys2Proof/Machine/Handshake.lean ====
section
/-! DEFINITION. The start signal and the three handshake waits (41_start_handshake.md). -/

namespace Sys2Proof.Machine

open Sys2Proof

/-- R122: `HOLD(T_START_LOW, START_HIGH)`. -/
def execStartLow (s : State) : Host.Outcome State Fault Refusal :=
  .next (s.clearDone.hold cfg.tStartLow .startHigh)

/-- R123: `HOLD(T_START_HIGH, HS_WAIT_LOW1)`. -/
def execStartHigh (s : State) : Host.Outcome State Fault Refusal :=
  .next (s.clearDone.hold cfg.tStartHigh .hsWaitLow1)

/-- R124: `WAIT(0, T_HS_TIMEOUT, HS_WAIT_HIGH)`. -/
def execHsWaitLow1 (s : State) : Host.Outcome State Fault Refusal :=
  .next (s.clearDone.wait false cfg.tHsTimeout .hsWaitHigh)

/-- R125: `WAIT(1, T_HS_TIMEOUT, HS_WAIT_LOW2)`. -/
def execHsWaitHigh (s : State) : Host.Outcome State Fault Refusal :=
  .next (s.clearDone.wait true cfg.tHsTimeout .hsWaitLow2)

/-- R126: `WAIT(0, T_HS_TIMEOUT, BIT_WAIT_RISE)`. -/
def execHsWaitLow2 (s : State) : Host.Outcome State Fault Refusal :=
  .next (s.clearDone.wait false cfg.tHsTimeout .bitWaitRise)

end Sys2Proof.Machine
end

