-- ==== Sys2Proof/Machine/Validation.lean ====
section
/-! DEFINITION. The checksum validator and the conversion (43_validate_convert.md). -/

namespace Sys2Proof.Machine

open Sys2Proof

/-- R181: to CONVERT on a match, else finish with CHECKSUM. -/
def execValidate (s : State) : Host.Outcome State Fault Refusal :=
  .next (if checksumOk s.frame then s.clearDone.goto .convert else s.clearDone.raiseChecksum)

/-- R182: publish the reading and finish with OK. -/
def execConvert (s : State) : Host.Outcome State Fault Refusal :=
  .next (s.clearDone.publish.finish .ok)

end Sys2Proof.Machine
end

