-- ==== Sys2Proof/Machine/Dispatch.lean ====
section
/-! DEFINITION. R100: the meaning of each row, one arm per constructor. -/

namespace Sys2Proof.Machine

open Sys2Proof

def exec (i : Instr) (s : State) : Host.Outcome State Fault Refusal :=
  match i with
  | .idle => Sys2Proof.Machine.execIdle s
  | .startLow => Sys2Proof.Machine.execStartLow s
  | .startHigh => Sys2Proof.Machine.execStartHigh s
  | .hsWaitLow1 => Sys2Proof.Machine.execHsWaitLow1 s
  | .hsWaitHigh => Sys2Proof.Machine.execHsWaitHigh s
  | .hsWaitLow2 => Sys2Proof.Machine.execHsWaitLow2 s
  | .bitWaitRise => Sys2Proof.Machine.execBitWaitRise s
  | .bitWaitFall => Sys2Proof.Machine.execBitWaitFall s
  | .validate => Sys2Proof.Machine.execValidate s
  | .convert => Sys2Proof.Machine.execConvert s
  | .decode => Sys2Proof.Machine.execDecode s

end Sys2Proof.Machine
end

