-- ==== Sys2Proof/Machine/Ports.lean ====
section
/-! DEFINITION. The output function (R6, R29, R30, R32) and the caller's view of a result (R105, R186). -/

namespace Sys2Proof.Machine

open Sys2Proof

/-- R29, R211: the line is an output while `st` is START_LOW or START_HIGH, an input in every other state
(in a reserved state too: log 5). -/
def State.lineOe (s : State) : Bool :=
  s.st == FsmState.startLow.code || s.st == FsmState.startHigh.code

/-- R29, R211: 0 while `st = START_LOW`, 1 in every other state. -/
def State.lineOut (s : State) : Bool := s.st != FsmState.startLow.code

/-- R30: the signed temperature in tenths of a degree, two's complement. -/
def State.tempTenths (s : State) : BitVec 16 :=
  if s.tsign then 0 - s.tmag.setWidth 16 else s.tmag.setWidth 16

/-- R32: the output ports. -/
structure Outputs where
  lineOe : Bool
  lineOut : Bool
  busy : Bool
  done : Bool
  outcome : BitVec 2
  humTenths : BitVec 16
  tempSign : Bool
  tempMag : BitVec 15
  tempTenths : BitVec 16
  deriving DecidableEq, Repr

/-- R6, R32: `outputs : State -> Outputs`. -/
def outputs (s : State) : Outputs where
  lineOe := s.lineOe
  lineOut := s.lineOut
  busy := s.busy
  done := s.done
  outcome := s.outcome.code
  humTenths := s.hum
  tempSign := s.tsign
  tempMag := s.tmag
  tempTenths := s.tempTenths

/-! ### The caller's view -/

/-- R105, R186: the reading of a validated frame, exact rationals in percent and degrees Celsius. -/
structure Reading where
  humidity : Rat
  temperature : Rat
  deriving DecidableEq, Repr

/-- R105: WS's DecodeOutcome. -/
inductive DecodeOutcome where
  | ok (r : Reading)
  | timeoutError
  | checksumError
  deriving DecidableEq, Repr

/-- R186: `hum_tenths / 10` and `(temp_sign ? -1 : +1) * temp_mag / 10`. -/
def readingOf (o : Outputs) : Reading where
  humidity := (o.humTenths.toNat : Rat) / 10
  temperature := (if o.tempSign then -1 else 1) * (o.tempMag.toNat : Rat) / 10

/-- R105: what the caller reads of a finished call from the ports; nothing while `outcome` is `NONE`. -/
def decodeOutcome (o : Outputs) : Option DecodeOutcome :=
  match o.outcome.toNat with
  | 1 => some (.ok (readingOf o))
  | 2 => some .timeoutError
  | 3 => some .checksumError
  | _ => none

end Sys2Proof.Machine
end

