-- ==== Sys2Proof/Machine/Step.lean ====
section
/-! DEFINITION. One step (R6, R100): decode {rst, req, st}, perform the row, present the next sample. -/

namespace Sys2Proof.Machine

open Sys2Proof

/-- R100. Each step samples the inputs once and makes at most one transition (R6, R7). -/
def step (s : State) : Host.Outcome State Fault Refusal :=
  presentAfter <|
    match decodeWord s.fetchWord with
    | .ok i => exec i s
    | .error r => rejectedStep s r

/-- `s` with the table word `w` where the coming step takes its row from: `st` and the ports `req` and `rst`
(log 3). A fetch word is one byte, so `nbits` sets nothing. -/
def State.withFetchWord (s : State) (_nbits w : Nat) : State := s.placeWord w

end Sys2Proof.Machine
end

