-- ==== Sys2Proof/Safety.lean ====
section
/-! DEFINITION. What counts as a safe run, in the terms claims use: runs, legal states (R21, R24 to R27), the premises on
the inputs (R237, R238), and the sample lists that make a call (R120, R121, R151). -/

namespace Sys2Proof.Safety

open Sys2Proof Sys2Proof.Machine

/-- `n` steps of the machine. -/
abbrev runFor (n : Nat) (s : State) : Host.Outcome State Fault Refusal := Host.Core.run Sys2Proof.core n s

/-- The state a platform launches: the block at reset (R37, R232), any samples before it. -/
def launch (inp : Inputs) (pending : List Inputs) (tick : Nat) : State :=
  { State.reset with inp := inp, pending := pending, tick := tick }

/-! ### Legal states -/

/-- R21: `st` holds one of the ten codes. -/
abbrev CodeLegal (s : State) : Prop := s.st.toNat ≤ 9

/-- R24: the count runs from 0 to 40. -/
abbrev CountLegal (s : State) : Prop := s.bitcnt.toNat ≤ 40

/-- R25, R26: during a call `outcome` is NONE and `done` is 0; `done` marks a finished call. -/
abbrev FlagsLegal (s : State) : Prop :=
  (s.st ≠ FsmState.idle.code → s.outcome = .none ∧ s.done = false) ∧ (s.done = true → s.outcome ≠ .none)

/-- R27: without `OK` the result registers hold 0. -/
abbrev ResultsLegal (s : State) : Prop :=
  s.outcome ≠ .ok → s.hum = 0 ∧ s.tsign = false ∧ s.tmag = 0

/-- R129: before bit sampling no bit has been received. -/
abbrev NoBitsBeforeSampling (s : State) : Prop :=
  1 ≤ s.st.toNat ∧ s.st.toNat ≤ 5 → s.bitcnt = 0 ∧ s.frame = 0

/-- R154, R155: while sampling, fewer than 40 bits have arrived and only their places of the frame are used. -/
abbrev FrameLegal (s : State) : Prop :=
  s.st = FsmState.bitWaitRise.code ∨ s.st = FsmState.bitWaitFall.code →
    s.bitcnt.toNat < 40 ∧ s.frame.toNat < 2 ^ s.bitcnt.toNat

/-- R56, R155: validation and conversion see exactly 40 bits, and conversion a frame that validated (R182). -/
abbrev ValidationLegal (s : State) : Prop :=
  (s.st = FsmState.validate.code ∨ s.st = FsmState.convert.code → s.bitcnt = 40) ∧
  (s.st = FsmState.convert.code → checksumOk s.frame = true)

/-- R25, R27, R157, R181: what each recorded outcome says of the call that recorded it. -/
abbrev OutcomeLegal (s : State) : Prop :=
  (s.outcome = .ok → s.bitcnt = 40 ∧ checksumOk s.frame = true ∧
    s.hum = humValue s.frame ∧ s.tsign = tsignValue s.frame ∧ s.tmag = tmagValue s.frame) ∧
  (s.outcome = .timeout → s.bitcnt.toNat < 40) ∧
  (s.outcome = .checksum → s.bitcnt = 40 ∧ checksumOk s.frame = false)

/-- The invariant of every run from reset. -/
abbrev Inv (s : State) : Prop :=
  CodeLegal s ∧ CountLegal s ∧ FlagsLegal s ∧ ResultsLegal s ∧ NoBitsBeforeSampling s ∧ FrameLegal s ∧
    ValidationLegal s ∧ OutcomeLegal s

/-! ### The failure conditions of R200 -/

/-- The level each wait state awaits (R124, R125, R126, R150, R151). -/
def awaitedLevel (c : StCode) : Option Bool :=
  match c.toNat with
  | 3 => some false
  | 4 => some true
  | 5 => some false
  | 6 => some true
  | 7 => some false
  | _ => none

/-- Microseconds since `t_mark`, on numbers. -/
def waited (s : State) : Nat := (s.inp.now - s.tMark).toNat

/-- R200, row TIMEOUT: a wait state whose level is not seen at this step, more than 100 us after its start. -/
def timesOut (s : State) : Bool :=
  match awaitedLevel s.st with
  | some level => s.inp.line != level && decide (100 < waited s)
  | none => false

/-- R200, row CHECKSUM: VALIDATE with a sum of bytes 0 to 3 (modulo 256) that is not byte 4. -/
def checksumFails (s : State) : Bool :=
  s.st == 0b1000 &&
    ((s.frame.toNat / 2 ^ 32 % 256 + s.frame.toNat / 2 ^ 24 % 256 + s.frame.toNat / 2 ^ 16 % 256
      + s.frame.toNat / 2 ^ 8 % 256) % 256 != s.frame.toNat % 256)

/-! ### Premises on the clock and the steps -/

/-- R238: the clock never decreases, on unwrapped instants. -/
def clockNeverDecreases : List Nat → Bool
  | a :: b :: ts => decide (a ≤ b) && clockNeverDecreases (b :: ts)
  | _ => true

/-- R237, D18, `SAMPLING_PREMISE`: consecutive steps are at most 1 us apart. -/
def samplingPremise : List Nat → Bool
  | a :: b :: ts => decide (b ≤ a + 1) && samplingPremise (b :: ts)
  | _ => true

/-- R236, R240: while the block drives the line, the line reads what it drives (no second driver). The block does not
check it: it does not read the line in those states (R51). -/
def lineOwned (s : State) : Bool := !s.lineOe || s.inp.line == s.lineOut

/-- The samples read the (wrapping) clock at the unwrapped instants `ts`, and none of them resets. -/
abbrev SampledAt (ts : List Nat) (xs : List Inputs) : Prop :=
  xs.map Inputs.now = ts.map (BitVec.ofNat 32) ∧ xs.all (fun x => !x.rst) = true

/-- One sample per microsecond from `t + 1` on, with the given levels and requests, no reset. -/
def unitSamples (t : U32) : List (Bool × Bool) → List Inputs
  | [] => []
  | (line, req) :: rest => { rst := false, req := req, line := line, now := t + 1 } :: unitSamples (t + 1) rest

/-! ### The samples of a call -/

/-- The samples of one stay in a hold or wait state: those that poll, then the one that leaves. -/
structure Leg where
  polls : List Inputs
  last : Inputs
  deriving DecidableEq, Repr

/-- The samples of a leg in order. -/
def Leg.samples (g : Leg) : List Inputs := g.polls ++ [g.last]

/-- A leg through HOLD(`time`) entered at `mark` (R121), without a reset. -/
def Leg.holds (time : Nat) (mark : U32) (g : Leg) : Bool :=
  g.samples.all (fun x => !x.rst) && g.polls.all (fun x => decide ((x.now - mark).toNat < time))
    && decide (time ≤ (g.last.now - mark).toNat)

/-- A leg through WAIT(`level`, 100) entered at `mark` (R120), ending in a match, without a reset. -/
def Leg.waits (level : Bool) (mark : U32) (g : Leg) : Bool :=
  g.samples.all (fun x => !x.rst)
    && g.polls.all (fun x => x.line != level && decide ((x.now - mark).toNat ≤ 100))
    && g.last.line == level

/-- One data bit: the leg to the rise and the leg to the fall. -/
structure Pulse where
  rise : Leg
  fall : Leg
  deriving DecidableEq, Repr

/-- The samples of a pulse in order. -/
def Pulse.samples (p : Pulse) : List Inputs := p.rise.samples ++ p.fall.samples

/-- R153 on numbers: the high time, rise instant to fall instant, is above 40 us. -/
def Pulse.bit (p : Pulse) : Bool := decide (40 < (p.fall.last.now - p.rise.last.now).toNat)

/-- Consecutive pulses whose waits all match within their bounds, the first entered at `mark`. -/
def pulsesMatch : U32 → List Pulse → Bool
  | _, [] => true
  | mark, p :: ps =>
    p.rise.waits true mark && p.fall.waits false p.rise.last.now && pulsesMatch p.fall.last.now ps

/-- The number a list of bits spells, the first the most significant (R54). -/
def bitsToNat (bs : List Bool) : Nat := bs.foldl (fun n b => 2 * n + b.toNat) 0

/-- The samples of a whole exchange after the DECODE step, up to the last fall. -/
structure Exchange where
  startLow : Leg
  startHigh : Leg
  ackLow : Leg
  ackHigh : Leg
  ready : Leg
  pulses : List Pulse
  deriving DecidableEq, Repr

/-- The samples of an exchange in order. -/
def Exchange.samples (e : Exchange) : List Inputs :=
  e.startLow.samples ++ e.startHigh.samples ++ e.ackLow.samples ++ e.ackHigh.samples ++ e.ready.samples
    ++ e.pulses.flatMap Pulse.samples

/-- The exchange follows a DECODE at instant `mark`: both holds last, every wait matches in time, 40 pulses come. -/
def Exchange.completes (mark : U32) (e : Exchange) : Bool :=
  e.startLow.holds 18000 mark && e.startHigh.holds 30 e.startLow.last.now
    && e.ackLow.waits false e.startHigh.last.now && e.ackHigh.waits true e.ackLow.last.now
    && e.ready.waits false e.ackHigh.last.now && pulsesMatch e.ready.last.now e.pulses
    && decide (e.pulses.length = 40)

/-- The frame an exchange carries, as a number of 40 bits. -/
def Exchange.frameNat (e : Exchange) : Nat := bitsToNat (e.pulses.map Pulse.bit)

/-- Byte k of a frame given as a number, in arrival order (R23). -/
def byteNat (f k : Nat) : Nat := f / 2 ^ (32 - 8 * k) % 256

end Sys2Proof.Safety
end

