-- ==== Sys2Proof/Certificates/Slice0/Obligations.lean ====
section
/-! DEFINITION. The statements for the provers. Each docstring names the rule of spec/ it formalises, or says what it
rests on. "The spec's decision D<n>" names a row of spec/92_eei_decisions.md that the cited rule records. -/

open Sys2Proof Sys2Proof.Machine Sys2Proof.Safety

/-! ### Encoding -/

/-- R84: every word {rst, req, st} without reset is a word of exactly one row, the one decoded, or holds a reserved code. -/
def Obligations.DecoderMatchesOpcodeTable : Prop :=
  ∀ w : FetchWord,
    (w.getLsbD 5 = true → decodeWord w = .error .resetAsserted) ∧
    (w.getLsbD 5 = false → 10 ≤ (w.extractLsb' 0 4).toNat →
      decodeWord w = .error (.reservedState (w.extractLsb' 0 4))) ∧
    (w.getLsbD 5 = false → (w.extractLsb' 0 4).toNat ≤ 9 →
      ∃ i, decodeWord w = .ok i ∧ rowAccepts i w = true ∧ ∀ j, rowAccepts j w = true → j = i)

/-- Decode and encode agree, on the fetch word and on the table word, whose form as one byte with bits 7 and 6 zero is the
model's choice (DESIGN CHOICE, log 4), not the spec's; and a word that decodes to a row differs from the
row's encoding only in bits the row's mask leaves free. -/
def Obligations.DecodeOfEncodeIsIdentity : Prop :=
  (∀ i : Instr, i.wellFormed = true →
    decodeWord (encode i) = .ok i ∧ decodeTableWord 8 (encode i).toNat = some i) ∧
  (∀ (i : Instr) (w : FetchWord), decodeWord w = .ok i → w &&& (opcodeRow i).mask = encode i)

/-- Words written out from R70's table and the row DECODE decode to the rows they stand for. -/
def Obligations.WrittenWordsDecode : Prop :=
  decodeWord 0b000000 = .ok .idle ∧ decodeWord 0b010000 = .ok .decode ∧
  decodeWord 0b000001 = .ok .startLow ∧ decodeWord 0b010100 = .ok .hsWaitHigh ∧
  decodeWord 0b000111 = .ok .bitWaitFall ∧ decodeWord 0b001000 = .ok .validate ∧
  decodeWord 0b011001 = .ok .convert ∧ decodeWord 0b001010 = .error (.reservedState 0b1010)

/-- R73: DECODE is `req = 1` in IDLE without reset; in any other state `req` changes nothing about the row. -/
def Obligations.RequestIsCommandOnlyInIdle : Prop :=
  (∀ s : State, decodeWord s.fetchWord = .ok .decode ↔ s.inp.rst = false ∧ s.st = 0b0000 ∧ s.inp.req = true) ∧
  (∀ (r q : Bool) (c : StCode), c ≠ 0b0000 → decodeWord (fetchWordOf r q c) = decodeWord (fetchWordOf r false c))

/-! ### The step -/

/-- When {rst, req, st} decodes to a row, the step is that row's meaning; then the environment presents the next sample, a
pending one or a free value, and changes no field of the block (log 1). -/
def Obligations.StepRunsDecodedInstruction : Prop :=
  ∀ (s : State) (i : Instr), decodeWord s.fetchWord = .ok i →
    ∃ t u, exec i s = .next t ∧ step s = .next u ∧
      u.st = t.st ∧ u.tMark = t.tMark ∧ u.frame = t.frame ∧ u.bitcnt = t.bitcnt ∧ u.outcome = t.outcome ∧
      u.done = t.done ∧ u.hum = t.hum ∧ u.tsign = t.tsign ∧ u.tmag = t.tmag ∧
      (∀ x xs, s.pending = x :: xs → u.inp = x ∧ u.pending = xs ∧ u.tick = s.tick) ∧
      (s.pending = [] → u.inp = Config.freeInputs s.tick ∧ u.pending = [] ∧ u.tick = s.tick + 1)

/-- The dispatch of R100: without reset the state code, and `req` in IDLE, choose the row; a reserved code faults. -/
def Obligations.DispatchByStateCode : Prop :=
  ∀ s : State, s.inp.rst = false →
    (s.st = 0 → s.inp.req = true → step s = presentAfter (exec .decode s)) ∧
    (s.st = 0 → s.inp.req = false → step s = presentAfter (exec .idle s)) ∧
    (s.st = 1 → step s = presentAfter (exec .startLow s)) ∧
    (s.st = 2 → step s = presentAfter (exec .startHigh s)) ∧
    (s.st = 3 → step s = presentAfter (exec .hsWaitLow1 s)) ∧
    (s.st = 4 → step s = presentAfter (exec .hsWaitHigh s)) ∧
    (s.st = 5 → step s = presentAfter (exec .hsWaitLow2 s)) ∧
    (s.st = 6 → step s = presentAfter (exec .bitWaitRise s)) ∧
    (s.st = 7 → step s = presentAfter (exec .bitWaitFall s)) ∧
    (s.st = 8 → step s = presentAfter (exec .validate s)) ∧
    (s.st = 9 → step s = presentAfter (exec .convert s)) ∧
    (10 ≤ s.st.toNat → step s = .fault (.reservedState s.st))

/-- R71: a reserved code is the fault ReservedState, and nothing else stops the machine; no row writes a reserved code, and
no run from reset meets one. -/
def Obligations.ReservedCodeIsTheOnlyStop : Prop :=
  (∀ s : State, s.inp.rst = false → 10 ≤ s.st.toNat → step s = .fault (.reservedState s.st)) ∧
  (∀ (s : State) (r : Fault), step s = .fault r → s.inp.rst = false ∧ 10 ≤ s.st.toNat ∧ r = .reservedState s.st) ∧
  (∀ (s : State) (r : Refusal), step s ≠ .refused r) ∧
  (∀ (i : Instr) (s t : State), exec i s = .next t → t.st = s.st ∨ t.st.toNat ≤ 9) ∧
  (∀ (inp : Inputs) (pending : List Inputs) (tick n : Nat) (t : State),
    runFor n (launch inp pending tick) = .next t → t.st.toNat ≤ 9)

/-- The table word placed by `withFetchWord` is the row the next step runs, and nothing else of the state changes but `st`,
`req` and `rst` (the model's convention, log 3). -/
def Obligations.PlacedWordRunsNext : Prop :=
  ∀ (s : State) (i : Instr),
    step (s.withFetchWord 8 (encode i).toNat) = presentAfter (exec i (s.withFetchWord 8 (encode i).toNat)) ∧
    ∃ c q, s.withFetchWord 8 (encode i).toNat = { s with st := c, inp := { s.inp with rst := false, req := q } }

/-! ### Reset -/

/-- R230: a step with `rst = 1` writes every field of the block, from every state and whatever the other inputs; the ports after it. -/
def Obligations.ResetStepWritesResetValues : Prop :=
  ∀ s : State, s.inp.rst = true →
    ∃ t, step s = .next t ∧ t.st = 0b0000 ∧ t.tMark = 0 ∧ t.frame = 0 ∧ t.bitcnt = 0 ∧ t.outcome = .none ∧
      t.done = false ∧ t.hum = 0 ∧ t.tsign = false ∧ t.tmag = 0 ∧
      (outputs t).lineOe = false ∧ (outputs t).lineOut = true ∧ (outputs t).busy = false

/-- R37: the block's fields and its ports in the reset state (the input samples there are the model's choice, log 2, and
not stated here). -/
def Obligations.ResetStateValues : Prop :=
  State.reset.st = 0b0000 ∧ State.reset.tMark = 0 ∧ State.reset.frame = 0 ∧ State.reset.bitcnt = 0 ∧
  State.reset.outcome.code = 0b00 ∧ State.reset.done = false ∧ State.reset.hum = 0 ∧ State.reset.tsign = false ∧
  State.reset.tmag = 0 ∧
  (outputs State.reset).busy = false ∧ (outputs State.reset).lineOe = false ∧
  (outputs State.reset).lineOut = true ∧ (outputs State.reset).tempTenths = 0

/-! ### The command and the idle row -/

/-- R102: IDLE-HOLD writes `done <- 0` only; its encoding; the line is an input. -/
def Obligations.IdleHoldResult : Prop :=
  ∀ s : State,
    exec .idle s = .next { s with done := false } ∧
    (s.inp.rst = false → s.inp.req = false → s.st = 0b0000 → decodeWord s.fetchWord = .ok .idle) ∧
    (s.st = 0b0000 → (outputs s).lineOe = false)

/-- R101 (the spec's decisions D12, D14): what DECODE writes, its encoding, and the ports after it. -/
def Obligations.DecodeCommandStartsCall : Prop :=
  ∀ s : State,
    exec .decode s = .next { s with
      done := false, frame := 0, bitcnt := 0, outcome := .none, hum := 0, tsign := false, tmag := 0,
      tMark := s.inp.now, st := 0b0001 } ∧
    (s.inp.rst = false → s.inp.req = true → s.st = 0b0000 → decodeWord s.fetchWord = .ok .decode) ∧
    (∀ t, exec .decode s = .next t → outputs t =
      { lineOe := true, lineOut := false, busy := true, done := false, outcome := 0b00,
        humTenths := 0, tempSign := false, tempMag := 0, tempTenths := 0 })

/-- R103 (the spec's decision D14): outside IDLE the request changes nothing about the step. -/
def Obligations.RequestIgnoredDuringCall : Prop :=
  ∀ (s : State) (q : Bool), s.st ≠ 0b0000 → step { s with inp := { s.inp with req := q } } = step s

/-- R39: two IDLE blocks that take a DECODE under the same samples go on as one, whatever calls they finished before. -/
def Obligations.NoStateCarriedBetweenCalls : Prop :=
  ∀ s₁ s₂ : State, s₁.st = 0b0000 → s₂.st = 0b0000 → s₁.inp = s₂.inp → s₁.pending = s₂.pending → s₁.tick = s₂.tick →
    s₁.inp.rst = false → s₁.inp.req = true → ∀ n, runFor (n + 1) s₁ = runFor (n + 1) s₂

/-! ### The timing primitives -/

/-- R120 (the spec's decision D7): WAIT, the level test before the strict timeout test. -/
def Obligations.WaitTestsLevelThenTimeout : Prop :=
  ∀ (level : Bool) (timeout : Nat) (next : FsmState) (s : State),
    (s.inp.line = level → s.wait level timeout next = { s with tMark := s.inp.now, st := next.code }) ∧
    (s.inp.line ≠ level → timeout < (s.inp.now - s.tMark).toNat →
      s.wait level timeout next = { s with outcome := .timeout, done := true, st := 0b0000 }) ∧
    (s.inp.line ≠ level → (s.inp.now - s.tMark).toNat ≤ timeout → s.wait level timeout next = s)

/-- R121 (the spec's decision D9): HOLD goes on once its time has passed and else writes nothing. -/
def Obligations.HoldLastsAtLeastItsTime : Prop :=
  ∀ (time : Nat) (next : FsmState) (s : State),
    (time ≤ (s.inp.now - s.tMark).toNat → s.hold time next = { s with tMark := s.inp.now, st := next.code }) ∧
    ((s.inp.now - s.tMark).toNat < time → s.hold time next = s)

/-! ### Start signal and handshake -/

/-- R122: START_LOW, its encoding and drive, and its hold of 18000 us. -/
def Obligations.StartLowResult : Prop :=
  ∀ s : State,
    (18000 ≤ (s.inp.now - s.tMark).toNat →
      exec .startLow s = .next { s with done := false, tMark := s.inp.now, st := 0b0010 }) ∧
    ((s.inp.now - s.tMark).toNat < 18000 → exec .startLow s = .next { s with done := false }) ∧
    (s.st = 0b0001 → (outputs s).lineOe = true ∧ (outputs s).lineOut = false) ∧
    (s.st = 0b0001 → s.inp.rst = false → decodeWord s.fetchWord = .ok .startLow)

/-- R123: START_HIGH, its encoding and drive, and its hold of 30 us, after which the line is an input. -/
def Obligations.StartHighResult : Prop :=
  ∀ s : State,
    (30 ≤ (s.inp.now - s.tMark).toNat →
      exec .startHigh s = .next { s with done := false, tMark := s.inp.now, st := 0b0011 } ∧
      (outputs { s with done := false, tMark := s.inp.now, st := 0b0011 }).lineOe = false) ∧
    ((s.inp.now - s.tMark).toNat < 30 → exec .startHigh s = .next { s with done := false }) ∧
    (s.st = 0b0010 → (outputs s).lineOe = true ∧ (outputs s).lineOut = true) ∧
    (s.st = 0b0010 → s.inp.rst = false → decodeWord s.fetchWord = .ok .startHigh)

/-- R124: HS_WAIT_LOW1 waits for 0. -/
def Obligations.HsWaitLow1Result : Prop :=
  ∀ s : State,
    (s.inp.line = false →
      exec .hsWaitLow1 s = .next { s with done := false, tMark := s.inp.now, st := 0b0100 }) ∧
    (s.inp.line = true → 100 < (s.inp.now - s.tMark).toNat →
      exec .hsWaitLow1 s = .next { s with outcome := .timeout, done := true, st := 0b0000 }) ∧
    (s.inp.line = true → (s.inp.now - s.tMark).toNat ≤ 100 → exec .hsWaitLow1 s = .next { s with done := false }) ∧
    (s.st = 0b0011 → (outputs s).lineOe = false) ∧
    (s.st = 0b0011 → s.inp.rst = false → decodeWord s.fetchWord = .ok .hsWaitLow1)

/-- R125: HS_WAIT_HIGH waits for 1. -/
def Obligations.HsWaitHighResult : Prop :=
  ∀ s : State,
    (s.inp.line = true →
      exec .hsWaitHigh s = .next { s with done := false, tMark := s.inp.now, st := 0b0101 }) ∧
    (s.inp.line = false → 100 < (s.inp.now - s.tMark).toNat →
      exec .hsWaitHigh s = .next { s with outcome := .timeout, done := true, st := 0b0000 }) ∧
    (s.inp.line = false → (s.inp.now - s.tMark).toNat ≤ 100 → exec .hsWaitHigh s = .next { s with done := false }) ∧
    (s.st = 0b0100 → (outputs s).lineOe = false) ∧
    (s.st = 0b0100 → s.inp.rst = false → decodeWord s.fetchWord = .ok .hsWaitHigh)

/-- R126: HS_WAIT_LOW2 waits for 0 again and starts bit sampling; `bitcnt` and `frame` are untouched. -/
def Obligations.HsWaitLow2Result : Prop :=
  ∀ s : State,
    (s.inp.line = false →
      exec .hsWaitLow2 s = .next { s with done := false, tMark := s.inp.now, st := 0b0110 }) ∧
    (s.inp.line = true → 100 < (s.inp.now - s.tMark).toNat →
      exec .hsWaitLow2 s = .next { s with outcome := .timeout, done := true, st := 0b0000 }) ∧
    (s.inp.line = true → (s.inp.now - s.tMark).toNat ≤ 100 → exec .hsWaitLow2 s = .next { s with done := false }) ∧
    (s.st = 0b0101 → (outputs s).lineOe = false) ∧
    (s.st = 0b0101 → s.inp.rst = false → decodeWord s.fetchWord = .ok .hsWaitLow2) ∧
    (s.st = 0b0101 → Inv s → s.bitcnt = 0 ∧ s.frame = 0)

/-! ### Bit sampling -/

/-- R150: BIT_WAIT_RISE waits for 1 and marks the pulse's start. -/
def Obligations.BitWaitRiseResult : Prop :=
  ∀ s : State,
    (s.inp.line = true →
      exec .bitWaitRise s = .next { s with done := false, tMark := s.inp.now, st := 0b0111 }) ∧
    (s.inp.line = false → 100 < (s.inp.now - s.tMark).toNat →
      exec .bitWaitRise s = .next { s with outcome := .timeout, done := true, st := 0b0000 }) ∧
    (s.inp.line = false → (s.inp.now - s.tMark).toNat ≤ 100 → exec .bitWaitRise s = .next { s with done := false }) ∧
    (s.st = 0b0110 → (outputs s).lineOe = false) ∧
    (s.st = 0b0110 → s.inp.rst = false → decodeWord s.fetchWord = .ok .bitWaitRise)

/-- R151: BIT_WAIT_FALL classifies the pulse, shifts its bit in, counts it and marks the instant; the 40th bit goes to VALIDATE. -/
def Obligations.BitWaitFallResult : Prop :=
  ∀ s : State,
    (s.inp.line = false →
      exec .bitWaitFall s = .next { s with
        done := false,
        frame := (s.frame <<< 1) ||| (if 40 < (s.inp.now - s.tMark).toNat then 1 else 0),
        bitcnt := s.bitcnt + 1,
        tMark := s.inp.now,
        st := if s.bitcnt + 1 = 40 then 0b1000 else 0b0110 }) ∧
    (s.inp.line = true → 100 < (s.inp.now - s.tMark).toNat →
      exec .bitWaitFall s = .next { s with outcome := .timeout, done := true, st := 0b0000 }) ∧
    (s.inp.line = true → (s.inp.now - s.tMark).toNat ≤ 100 → exec .bitWaitFall s = .next { s with done := false }) ∧
    (s.st = 0b0111 → (outputs s).lineOe = false) ∧
    (s.st = 0b0111 → s.inp.rst = false → decodeWord s.fetchWord = .ok .bitWaitFall)

/-- R152, R153: the duration is the modular difference, true across a wrap of the clock; the bit is 1 exactly above 40 us. -/
def Obligations.PulseDurationAndBit : Prop :=
  (∀ tr tf : U32, (duration tr tf).toNat = (tf.toNat + 2 ^ 32 - tr.toNat) % 2 ^ 32) ∧
  (∀ (tr : U32) (d : Nat), d < 2 ^ 32 → (duration tr (tr + BitVec.ofNat 32 d)).toNat = d) ∧
  (∀ d : U32, bitval d = true ↔ 40 < d.toNat)

/-- R54: after 40 bits, arrival bit i is `frame[39 - i]`, which is bit `7 - (i mod 8)` of byte `floor(i / 8)`, whatever the
register held before (R154: no bit of an earlier call survives). -/
def Obligations.FortyBitsFillTheFrame : Prop :=
  ∀ (frame : FrameWord) (bits : List Bool), bits.length = 40 →
    ∀ (i : Nat) (h : i < bits.length),
      (bits.foldl shiftIn frame).getLsbD (39 - i) = bits[i] ∧
      (frameByte (bits.foldl shiftIn frame) (i / 8)).getLsbD (7 - i % 8) = bits[i]

/-! ### Validation and conversion -/

/-- R180: the checksum, on numbers. -/
def Obligations.ChecksumIsByteSum : Prop :=
  ∀ f : FrameWord,
    (csum f).toNat = (byteNat f.toNat 0 + byteNat f.toNat 1 + byteNat f.toNat 2 + byteNat f.toNat 3) % 256 ∧
    (checksumOk f = true ↔
      (byteNat f.toNat 0 + byteNat f.toNat 1 + byteNat f.toNat 2 + byteNat f.toNat 3) % 256 = byteNat f.toNat 4)

/-- The fields of a frame on numbers: R75's humidity, R76's sign and magnitude, big-endian (R55). -/
def Obligations.FrameFieldsBigEndian : Prop :=
  ∀ f : FrameWord,
    (humValue f).toNat = 256 * byteNat f.toNat 0 + byteNat f.toNat 1 ∧
    (tsignValue f = true ↔ 128 ≤ byteNat f.toNat 2) ∧
    (tmagValue f).toNat = 256 * (byteNat f.toNat 2 % 128) + byteNat f.toNat 3

/-- R181: VALIDATE goes to CONVERT on a match and else finishes with CHECKSUM; the line is an input. -/
def Obligations.ValidateResult : Prop :=
  ∀ s : State,
    (csum s.frame = s.frame.extractLsb' 0 8 → exec .validate s = .next { s with done := false, st := 0b1001 }) ∧
    (csum s.frame ≠ s.frame.extractLsb' 0 8 →
      exec .validate s = .next { s with outcome := .checksum, done := true, st := 0b0000 }) ∧
    (s.st = 0b1000 → (outputs s).lineOe = false) ∧
    (s.st = 0b1000 → s.inp.rst = false → decodeWord s.fetchWord = .ok .validate)

/-- R182: CONVERT publishes the reading and finishes with OK, in one step. -/
def Obligations.ConvertResult : Prop :=
  ∀ s : State,
    exec .convert s = .next { s with
      hum := s.frame.extractLsb' 32 8 ++ s.frame.extractLsb' 24 8,
      tsign := (s.frame.extractLsb' 16 8).getLsbD 7,
      tmag := (s.frame.extractLsb' 16 8).extractLsb' 0 7 ++ s.frame.extractLsb' 8 8,
      outcome := .ok, done := true, st := 0b0000 } ∧
    (s.st = 0b1001 → (outputs s).lineOe = false) ∧
    (s.st = 0b1001 → s.inp.rst = false → decodeWord s.fetchWord = .ok .convert)

/-! ### Ports -/

/-- R29: the line outputs in each of the ten states. -/
def Obligations.LineDriveByState : Prop :=
  ∀ s : State,
    (s.st = 0 → (outputs s).lineOe = false ∧ (outputs s).lineOut = true) ∧
    (s.st = 1 → (outputs s).lineOe = true ∧ (outputs s).lineOut = false) ∧
    (s.st = 2 → (outputs s).lineOe = true ∧ (outputs s).lineOut = true) ∧
    (3 ≤ s.st.toNat → s.st.toNat ≤ 9 → (outputs s).lineOe = false ∧ (outputs s).lineOut = true)

/-- R30: `temp_tenths` is the signed temperature; its range; no negative zero. -/
def Obligations.TempTenthsIsSignedValue : Prop :=
  ∀ s : State,
    (outputs s).tempTenths.toInt = (if s.tsign = true then -(s.tmag.toNat : Int) else (s.tmag.toNat : Int)) ∧
    -32767 ≤ (outputs s).tempTenths.toInt ∧ (outputs s).tempTenths.toInt ≤ 32767 ∧
    (s.tsign = true → s.tmag = 0 → (outputs s).tempTenths = 0)

/-- What each output port of 10_state.md section 3 shows; `t_mark`, `frame`, `bitcnt` and the inputs reach none. For the ten
codes the line clauses are R29's table; for codes 10 to 15, which it does not list, they are the model's (DEDUCED, log 5). -/
def Obligations.PortsShowOnlyTheirRegisters : Prop :=
  ∀ s : State,
    (outputs s).lineOe = (s.st == 0b0001 || s.st == 0b0010) ∧ (outputs s).lineOut = (s.st != 0b0001) ∧
    (outputs s).tempTenths = (if s.tsign then 0 - s.tmag.setWidth 16 else s.tmag.setWidth 16) ∧
    (outputs s).busy = (s.st != 0b0000) ∧ (outputs s).done = s.done ∧ (outputs s).outcome = s.outcome.code ∧
    (outputs s).humTenths = s.hum ∧ (outputs s).tempSign = s.tsign ∧ (outputs s).tempMag = s.tmag ∧
    (∀ (m : U32) (f : FrameWord) (n : BitVec 6) (x : Inputs) (xs : List Inputs) (k : Nat),
      outputs { s with tMark := m, frame := f, bitcnt := n, inp := x, pending := xs, tick := k } = outputs s)

/-- What the caller reads of a finished call: R105's table, with R186's exact rationals, and R30's sign. -/
def Obligations.CallerReadsDecodeOutcome : Prop :=
  ∀ s : State,
    (s.outcome = .ok → decodeOutcome (outputs s) =
      some (.ok ⟨(s.hum.toNat : Rat) / 10, ((outputs s).tempTenths.toInt : Rat) / 10⟩)) ∧
    (s.outcome = .timeout → decodeOutcome (outputs s) = some .timeoutError) ∧
    (s.outcome = .checksum → decodeOutcome (outputs s) = some .checksumError) ∧
    (s.outcome = .none → decodeOutcome (outputs s) = none)

/-! ### Failures and completion -/

/-- R201: the finish sequence writes `outcome`, `done` and `st` and nothing else, and the line is an input after it. -/
def Obligations.FinishSequence : Prop :=
  ∀ s : State,
    s.raiseTimeout = { s with outcome := .timeout, done := true, st := 0b0000 } ∧
    s.raiseChecksum = { s with outcome := .checksum, done := true, st := 0b0000 } ∧
    exec .convert s = .next ((s.publish).finish .ok) ∧
    (outputs s.raiseTimeout).lineOe = false ∧ (outputs s.raiseChecksum).lineOe = false

/-- R200: the two failure causes, their codes, and exactly when a step raises them. -/
def Obligations.FailureCausesAreExactlyTwo : Prop :=
  CallOutcome.timeout.code = 0b10 ∧ CallOutcome.checksum.code = 0b11 ∧
  ∀ s t : State, step s = .next t →
    ((t.done = true ∧ t.outcome = .timeout) ↔ (s.inp.rst = false ∧ timesOut s = true)) ∧
    ((t.done = true ∧ t.outcome = .checksum) ↔ (s.inp.rst = false ∧ checksumFails s = true))

/-- R26: `done` is 1 after exactly the steps that finish a call, and 0 after every other step. -/
def Obligations.DoneMarksExactlyTheFinish : Prop :=
  ∀ s t : State, step s = .next t →
    (t.done = true ↔
      s.inp.rst = false ∧ (timesOut s = true ∨ checksumFails s = true ∨ s.st = 0b1001))

/-- R157: a timeout in bit sampling, bit N = `bitcnt + 1` of 1..40: the ports show TIMEOUT and zeros, no bit of the frame. -/
def Obligations.SamplingTimeoutExposesNothing : Prop :=
  ∀ s : State, Inv s → s.st = 0b0110 ∨ s.st = 0b0111 → s.inp.rst = false → timesOut s = true →
    s.bitcnt.toNat + 1 ≤ 40 ∧
    ∃ t, step s = .next t ∧ t.bitcnt = s.bitcnt ∧ outputs t =
      { lineOe := false, lineOut := true, busy := false, done := true, outcome := 0b10,
        humTenths := 0, tempSign := false, tempMag := 0, tempTenths := 0 }

/-- A handshake timeout: TIMEOUT, no bit received, results cleared (the spec marks 41_start_handshake.md's R129 as derived). -/
def Obligations.HandshakeTimeoutLeavesNothing : Prop :=
  ∀ s : State, Inv s → 3 ≤ s.st.toNat → s.st.toNat ≤ 5 → s.inp.rst = false → timesOut s = true →
    ∃ t, step s = .next t ∧ t.st = 0b0000 ∧ t.outcome = .timeout ∧ t.bitcnt = 0 ∧ t.frame = 0 ∧
      t.hum = 0 ∧ t.tsign = false ∧ t.tmag = 0

/-- R188: on CHECKSUM no byte of the frame reaches a port; the results read 0. -/
def Obligations.ChecksumFailureExposesNothing : Prop :=
  ∀ s : State, Inv s → s.inp.rst = false → checksumFails s = true →
    ∃ t, step s = .next t ∧ outputs t =
      { lineOe := false, lineOut := true, busy := false, done := true, outcome := 0b11,
        humTenths := 0, tempSign := false, tempMag := 0, tempTenths := 0 }

/-- R235: when the result ports hold a reading, and what they read otherwise, in every state the invariant allows. -/
def Obligations.ResultPortsValidity : Prop :=
  ∀ s : State, Inv s →
    ((outputs s).busy = true →
      (outputs s).outcome = 0b00 ∧ (outputs s).humTenths = 0 ∧ (outputs s).tempSign = false ∧ (outputs s).tempMag = 0 ∧
      (outputs s).tempTenths = 0) ∧
    ((outputs s).outcome = 0b10 ∨ (outputs s).outcome = 0b11 →
      (outputs s).humTenths = 0 ∧ (outputs s).tempSign = false ∧ (outputs s).tempMag = 0 ∧ (outputs s).tempTenths = 0) ∧
    ((outputs s).humTenths ≠ 0 ∨ (outputs s).tempSign = true ∨ (outputs s).tempMag ≠ 0 ∨
        (outputs s).tempTenths ≠ 0 →
      (outputs s).busy = false ∧ (outputs s).outcome = 0b01)

/-! ### Whole-machine rules -/

/-- What each row leaves unchanged: the frame of all eleven rows, register by register. -/
def Obligations.RowsLeaveOtherRegisters : Prop :=
  ∀ (i : Instr) (s t : State), exec i s = .next t →
    (t.inp = s.inp ∧ t.pending = s.pending ∧ t.tick = s.tick) ∧
    (i ≠ .decode → i ≠ .bitWaitFall → t.frame = s.frame ∧ t.bitcnt = s.bitcnt) ∧
    (i ≠ .decode → i ≠ .convert → t.hum = s.hum ∧ t.tsign = s.tsign ∧ t.tmag = s.tmag) ∧
    (i = .idle ∨ i = .startLow ∨ i = .startHigh → t.outcome = s.outcome ∧ t.done = false) ∧
    (i = .idle ∨ i = .validate ∨ i = .convert → t.tMark = s.tMark) ∧
    (i = .idle → t.st = s.st) ∧
    (t.outcome ≠ s.outcome → i = .decode ∨ t.done = true ∧ t.st = 0b0000)

/-- A step changes the result registers in two ways only: DECODE clears them, CONVERT writes them as it writes OK. -/
def Obligations.ResultsWrittenTwice : Prop :=
  ∀ s t : State, s.inp.rst = false → step s = .next t →
    (t.hum = s.hum ∧ t.tsign = s.tsign ∧ t.tmag = s.tmag) ∨
    (s.st = 0b0000 ∧ s.inp.req = true ∧ t.outcome = .none ∧ t.hum = 0 ∧ t.tsign = false ∧ t.tmag = 0) ∨
    (s.st = 0b1001 ∧ t.outcome = .ok ∧ t.done = true ∧
      t.hum = humValue s.frame ∧ t.tsign = tsignValue s.frame ∧ t.tmag = tmagValue s.frame)

/-- R34: `st` moves along the edges of the FSM only. -/
def Obligations.StateMovesAlongEdges : Prop :=
  ∀ s t : State, Inv s → step s = .next t →
    t.st.toNat ≤ 9 ∧
    (s.inp.rst = true → t.st = 0) ∧
    (s.inp.rst = false →
      t.st = s.st ∨
      (s.st = 0 ∧ s.inp.req = true ∧ t.st = 1) ∨ (s.st = 1 ∧ t.st = 2) ∨ (s.st = 2 ∧ t.st = 3) ∨
      (s.st = 3 ∧ t.st = 4) ∨ (s.st = 4 ∧ t.st = 5) ∨ (s.st = 5 ∧ t.st = 6) ∨ (s.st = 6 ∧ t.st = 7) ∨
      (s.st = 7 ∧ t.st = 6 ∧ t.bitcnt.toNat < 40) ∨ (s.st = 7 ∧ t.st = 8 ∧ t.bitcnt = 40) ∨ (s.st = 8 ∧ t.st = 9) ∨
      (3 ≤ s.st.toNat ∧ t.st = 0 ∧ t.done = true))

/-- A transition into a hold or wait state marks the instant of its step. -/
def Obligations.TransitionsMarkTheInstant : Prop :=
  ∀ s t : State, s.inp.rst = false → step s = .next t → t.st ≠ s.st → 1 ≤ t.st.toNat → t.st.toNat ≤ 7 →
    t.tMark = s.inp.now

/-- Bit sampling ends only with 40 bits, a timeout or a reset (the spec marks the rule's list as derived). -/
def Obligations.SamplingEndsInThreeWays : Prop :=
  ∀ s t : State, Inv s → s.st = 0b0110 ∨ s.st = 0b0111 → step s = .next t →
    ((t.st = 0b0110 ∨ t.st = 0b0111) ∧ t.bitcnt.toNat < 40) ∨
    (t.st = 0b1000 ∧ t.bitcnt = 40 ∧ s.st = 0b0111 ∧ s.bitcnt = 39 ∧ s.inp.line = false) ∨
    (t.st = 0b0000 ∧ t.outcome = .timeout ∧ timesOut s = true) ∨
    (t.st = 0b0000 ∧ t.outcome = .none ∧ s.inp.rst = true)

/-- The line is read in the five wait states only: elsewhere its level changes nothing. -/
def Obligations.LineReadOnlyInWaits : Prop :=
  ∀ (s : State) (v : Bool), s.st.toNat < 3 ∨ 7 < s.st.toNat ∨ s.inp.rst = true →
    step { s with inp := { s.inp with line := v } } = step s

/-- The clock is read only by DECODE and in the hold and wait states (40_control.md's dispatch; 20_memory.md's list leaves
DECODE out, log 12). -/
def Obligations.ClockReadOnlyWhereTimed : Prop :=
  ∀ (s : State) (c : U32), s.inp.rst = true ∨ 8 ≤ s.st.toNat ∨ (s.st = 0b0000 ∧ s.inp.req = false) →
    step { s with inp := { s.inp with now := c } } = step s

/-! ### The invariant -/

/-- Reset, under any samples, meets the invariant. -/
def Obligations.LaunchMeetsInv : Prop :=
  ∀ (inp : Inputs) (pending : List Inputs) (tick : Nat), Inv (launch inp pending tick)

/-- HEADLINE: every step keeps the invariant: a legal code; a count of at most 40 and a frame of just that many bits; no
outcome during a call; results 0 unless OK, and then those of a frame of 40 bits that validated. -/
def Obligations.StepKeepsInv : Prop :=
  ∀ s t : State, Inv s → step s = .next t → Inv t

/-- No run from reset, under any samples, ever stops, and each of its states meets the invariant. -/
def Obligations.RunsFromResetNeverStop : Prop :=
  ∀ (inp : Inputs) (pending : List Inputs) (tick n : Nat),
    ∃ t, runFor n (launch inp pending tick) = .next t ∧ Inv t

/-! ### Runs -/

/-- A finished call's outcome and reading stay while no DECODE and no reset comes, for any number of steps. -/
def Obligations.ResultHeldWhileIdle : Prop :=
  ∀ (s : State) (xs rest : List Inputs), s.st = 0b0000 → s.inp :: s.pending = xs ++ rest →
    (∀ x ∈ xs, x.rst = false ∧ x.req = false) →
    ∃ t, runFor xs.length s = .next t ∧ t.st = 0b0000 ∧ t.outcome = s.outcome ∧
      t.hum = s.hum ∧ t.tsign = s.tsign ∧ t.tmag = s.tmag ∧ t.frame = s.frame ∧ t.bitcnt = s.bitcnt ∧
      t.tMark = s.tMark ∧ (xs ≠ [] → t.done = false)

/-- With a stopped clock a wait whose level never comes and a hold never end (the hang of R238): the block stays as it is. -/
def Obligations.StoppedClockHangs : Prop :=
  ∀ (s : State) (c : U32) (xs rest : List Inputs), s.inp :: s.pending = xs ++ rest →
    (∀ x ∈ xs, x.rst = false ∧ x.now = c) →
    ((∃ level, awaitedLevel s.st = some level ∧ (∀ x ∈ xs, x.line ≠ level) ∧ (c - s.tMark).toNat ≤ 100) ∨
      (s.st = 0b0001 ∧ (c - s.tMark).toNat < 18000) ∨ (s.st = 0b0010 ∧ (c - s.tMark).toNat < 30)) →
    ∃ t, runFor xs.length s = .next t ∧ t.st = s.st ∧ t.tMark = s.tMark ∧ t.frame = s.frame ∧
      t.bitcnt = s.bitcnt ∧ t.outcome = s.outcome

/-- At one step per microsecond the line is low for exactly 18000 us from the DECODE step, then driven high for exactly
30 us, and an input at +18030, whatever the line and the requests. -/
def Obligations.StartSignalTiming : Prop :=
  ∀ (s : State) (levels : List (Bool × Bool)), s.st = 0b0000 → s.inp.rst = false → s.inp.req = true →
    s.pending = unitSamples s.inp.now levels → 18030 ≤ levels.length →
    (∀ n, 1 ≤ n → n ≤ 18000 → ∃ t, runFor n s = .next t ∧ t.st = 0b0001 ∧
      (outputs t).lineOe = true ∧ (outputs t).lineOut = false) ∧
    (∀ n, 18001 ≤ n → n ≤ 18030 → ∃ t, runFor n s = .next t ∧ t.st = 0b0010 ∧
      (outputs t).lineOe = true ∧ (outputs t).lineOut = true) ∧
    (∃ t, runFor 18031 s = .next t ∧ t.st = 0b0011 ∧ (outputs t).lineOe = false ∧
      t.tMark = s.inp.now + 18030)

/-- With no sensor (the line always high), one step per microsecond, a call is busy through +18130 and ends with
TIMEOUT at +18131, with no bit received and the results 0. -/
def Obligations.SilentLineTimesOut : Prop :=
  ∀ (s : State) (levels : List (Bool × Bool)), s.st = 0b0000 → s.inp.rst = false → s.inp.req = true →
    s.pending = unitSamples s.inp.now levels → 18131 ≤ levels.length → (∀ l ∈ levels, l.1 = true) →
    (∀ n, 1 ≤ n → n ≤ 18131 → ∃ t, runFor n s = .next t ∧ t.st ≠ 0b0000) ∧
    (∃ t, runFor 18132 s = .next t ∧ t.st = 0b0000 ∧ t.done = true ∧ t.outcome = .timeout ∧
      t.bitcnt = 0 ∧ t.frame = 0 ∧ t.hum = 0 ∧ t.tsign = false ∧ t.tmag = 0 ∧ t.tMark = s.inp.now + 18030)

/-- A whole exchange, for any step timing and any line that completes both holds, the three handshake waits and 40
pulses: the call ends in OK with the reading of the 40 classified bits when their fifth byte is the sum of the first four,
and in CHECKSUM with results 0 when it is not. -/
def Obligations.ExchangeDeliversItsFrame : Prop :=
  ∀ (s : State) (e : Exchange) (v w : Inputs) (rest : List Inputs),
    s.st = 0b0000 → s.inp.rst = false → s.inp.req = true → e.completes s.inp.now = true →
    v.rst = false → w.rst = false → s.pending = e.samples ++ v :: w :: rest →
    ((byteNat e.frameNat 0 + byteNat e.frameNat 1 + byteNat e.frameNat 2 + byteNat e.frameNat 3) % 256
        = byteNat e.frameNat 4 →
      ∃ t, runFor (e.samples.length + 3) s = .next t ∧ t.st = 0b0000 ∧ t.done = true ∧ t.outcome = .ok ∧
        t.frame.toNat = e.frameNat ∧
        t.hum.toNat = 256 * byteNat e.frameNat 0 + byteNat e.frameNat 1 ∧
        t.tsign = decide (128 ≤ byteNat e.frameNat 2) ∧
        t.tmag.toNat = 256 * (byteNat e.frameNat 2 % 128) + byteNat e.frameNat 3) ∧
    ((byteNat e.frameNat 0 + byteNat e.frameNat 1 + byteNat e.frameNat 2 + byteNat e.frameNat 3) % 256
        ≠ byteNat e.frameNat 4 →
      ∃ t, runFor (e.samples.length + 2) s = .next t ∧ t.st = 0b0000 ∧ t.done = true ∧ t.outcome = .checksum ∧
        t.hum = 0 ∧ t.tsign = false ∧ t.tmag = 0)

/-- At one step per microsecond every call ends, whatever the line and the requests, with exactly one outcome:
not before +18031, OK by +26415, CHECKSUM by +26414, TIMEOUT by +26413 (step n reads instant +(n - 1)). -/
def Obligations.CallEndsInBound : Prop :=
  ∀ (s : State) (levels : List (Bool × Bool)), s.st = 0b0000 → s.inp.rst = false → s.inp.req = true →
    s.pending = unitSamples s.inp.now levels → 26415 ≤ levels.length →
    ∃ n t, 18031 < n ∧ n ≤ 26416 ∧ runFor n s = .next t ∧ t.st = 0b0000 ∧ t.done = true ∧ t.outcome ≠ .none ∧
      (t.outcome = .checksum → n ≤ 26415) ∧ (t.outcome = .timeout → n ≤ 26414) ∧
      (∀ m, 1 ≤ m → m < n → ∃ u, runFor m s = .next u ∧ u.st ≠ 0b0000 ∧ u.done = false ∧ u.outcome = .none)

/-- A call ends whenever the clock advances far enough: steps at most 1 us apart (R237's premise), however many
share an instant, and an instant 26416 us after the DECODE step's among them. -/
def Obligations.CallEndsWhenClockAdvances : Prop :=
  ∀ (s : State) (t₀ : Nat) (ts : List Nat), s.st = 0b0000 → s.inp.rst = false → s.inp.req = true →
    s.inp.now = BitVec.ofNat 32 t₀ → SampledAt ts s.pending →
    clockNeverDecreases (t₀ :: ts) = true → samplingPremise (t₀ :: ts) = true → t₀ + 26416 ∈ ts →
    ∃ n t, n ≤ ts.length + 1 ∧ runFor n s = .next t ∧ t.st = 0b0000 ∧ t.done = true ∧ t.outcome ≠ .none
end

