-- ==== Sys2Proof/Laws/Decode.lean ====
section
/-! SUPPORT. The codes and the fields of a fetch word. -/

namespace Sys2Proof

@[simp] theorem FsmState.ofCode_code (n : FsmState) : FsmState.ofCode n.code = some n := by
  cases n <;> rfl

/-- A code names a state exactly when it is that state's code. -/
theorem FsmState.ofCode_eq_some {c : StCode} {n : FsmState} : FsmState.ofCode c = some n ↔ c = n.code := by
  revert c; cases n <;> decide

/-- A code names no state exactly when it is reserved (R71). -/
theorem FsmState.ofCode_eq_none {c : StCode} : FsmState.ofCode c = none ↔ 10 ≤ c.toNat := by
  revert c; decide

/-- Distinct states have distinct codes (R70). -/
theorem FsmState.code_injective {m n : FsmState} (h : m.code = n.code) : m = n := by
  have h' := congrArg FsmState.ofCode h
  simpa using h'

@[simp] theorem FsmState.code_inj {m n : FsmState} : m.code = n.code ↔ m = n :=
  ⟨FsmState.code_injective, congrArg FsmState.code⟩

@[simp] theorem rstBit_fetchWordOf (r q : Bool) (c : StCode) : FetchWord.rstBit (fetchWordOf r q c) = r := by
  revert r q c; decide

@[simp] theorem reqBit_fetchWordOf (r q : Bool) (c : StCode) : FetchWord.reqBit (fetchWordOf r q c) = q := by
  revert r q c; decide

@[simp] theorem stBits_fetchWordOf (r q : Bool) (c : StCode) : FetchWord.stBits (fetchWordOf r q c) = c := by
  revert r q c; decide

/-- Every fetch word is made of its three fields. -/
theorem fetchWordOf_fields (w : FetchWord) :
    fetchWordOf (FetchWord.rstBit w) (FetchWord.reqBit w) (FetchWord.stBits w) = w := by
  revert w; decide

/-- The row of each state, and of the command in IDLE (R100). -/
def FsmState.row (req : Bool) : FsmState → Instr
  | .idle => if req then .decode else .idle
  | .startLow => .startLow
  | .startHigh => .startHigh
  | .hsWaitLow1 => .hsWaitLow1
  | .hsWaitHigh => .hsWaitHigh
  | .hsWaitLow2 => .hsWaitLow2
  | .bitWaitRise => .bitWaitRise
  | .bitWaitFall => .bitWaitFall
  | .validate => .validate
  | .convert => .convert

/-- Without reset, a word whose `st` is a state's code decodes to that state's row. -/
theorem decodeWord_code (q : Bool) (n : FsmState) :
    decodeWord (fetchWordOf false q n.code) = .ok (n.row q) := by
  cases n <;> simp [decodeWord, FsmState.row]

/-- With reset asserted no word is a row. -/
theorem decodeWord_reset (q : Bool) (c : StCode) :
    decodeWord (fetchWordOf true q c) = .error .resetAsserted := by
  simp [decodeWord]

/-- A reserved code is no row. -/
theorem decodeWord_reserved (q : Bool) {c : StCode} (h : 10 ≤ c.toNat) :
    decodeWord (fetchWordOf false q c) = .error (.reservedState c) := by
  simp [decodeWord, FsmState.ofCode_eq_none.2 h]

end Sys2Proof
end

