-- ==== Sys2Proof/Laws/State.lean ====
section
/-! SUPPORT. One lemma per field per update of the state. -/

namespace Sys2Proof.Machine

open Sys2Proof

/-! ### clearDone -/

@[simp] theorem State.clearDone_st (s : State) : s.clearDone.st = s.st := rfl
@[simp] theorem State.clearDone_tMark (s : State) : s.clearDone.tMark = s.tMark := rfl
@[simp] theorem State.clearDone_frame (s : State) : s.clearDone.frame = s.frame := rfl
@[simp] theorem State.clearDone_bitcnt (s : State) : s.clearDone.bitcnt = s.bitcnt := rfl
@[simp] theorem State.clearDone_outcome (s : State) : s.clearDone.outcome = s.outcome := rfl
@[simp] theorem State.clearDone_done (s : State) : s.clearDone.done = false := rfl
@[simp] theorem State.clearDone_hum (s : State) : s.clearDone.hum = s.hum := rfl
@[simp] theorem State.clearDone_tsign (s : State) : s.clearDone.tsign = s.tsign := rfl
@[simp] theorem State.clearDone_tmag (s : State) : s.clearDone.tmag = s.tmag := rfl
@[simp] theorem State.clearDone_inp (s : State) : s.clearDone.inp = s.inp := rfl
@[simp] theorem State.clearDone_pending (s : State) : s.clearDone.pending = s.pending := rfl
@[simp] theorem State.clearDone_tick (s : State) : s.clearDone.tick = s.tick := rfl

/-! ### recordOutcome -/

@[simp] theorem State.recordOutcome_st (c : CallOutcome) (s : State) : (s.recordOutcome c).st = s.st := rfl
@[simp] theorem State.recordOutcome_tMark (c : CallOutcome) (s : State) : (s.recordOutcome c).tMark = s.tMark := rfl
@[simp] theorem State.recordOutcome_frame (c : CallOutcome) (s : State) : (s.recordOutcome c).frame = s.frame := rfl
@[simp] theorem State.recordOutcome_bitcnt (c : CallOutcome) (s : State) : (s.recordOutcome c).bitcnt = s.bitcnt := rfl
@[simp] theorem State.recordOutcome_outcome (c : CallOutcome) (s : State) : (s.recordOutcome c).outcome = c := rfl
@[simp] theorem State.recordOutcome_done (c : CallOutcome) (s : State) : (s.recordOutcome c).done = true := rfl
@[simp] theorem State.recordOutcome_hum (c : CallOutcome) (s : State) : (s.recordOutcome c).hum = s.hum := rfl
@[simp] theorem State.recordOutcome_tsign (c : CallOutcome) (s : State) : (s.recordOutcome c).tsign = s.tsign := rfl
@[simp] theorem State.recordOutcome_tmag (c : CallOutcome) (s : State) : (s.recordOutcome c).tmag = s.tmag := rfl
@[simp] theorem State.recordOutcome_inp (c : CallOutcome) (s : State) : (s.recordOutcome c).inp = s.inp := rfl
@[simp] theorem State.recordOutcome_pending (c : CallOutcome) (s : State) : (s.recordOutcome c).pending = s.pending := rfl
@[simp] theorem State.recordOutcome_tick (c : CallOutcome) (s : State) : (s.recordOutcome c).tick = s.tick := rfl

/-! ### goto -/

@[simp] theorem State.goto_st (n : FsmState) (s : State) : (s.goto n).st = n.code := rfl
@[simp] theorem State.goto_tMark (n : FsmState) (s : State) : (s.goto n).tMark = s.tMark := rfl
@[simp] theorem State.goto_frame (n : FsmState) (s : State) : (s.goto n).frame = s.frame := rfl
@[simp] theorem State.goto_bitcnt (n : FsmState) (s : State) : (s.goto n).bitcnt = s.bitcnt := rfl
@[simp] theorem State.goto_outcome (n : FsmState) (s : State) : (s.goto n).outcome = s.outcome := rfl
@[simp] theorem State.goto_done (n : FsmState) (s : State) : (s.goto n).done = s.done := rfl
@[simp] theorem State.goto_hum (n : FsmState) (s : State) : (s.goto n).hum = s.hum := rfl
@[simp] theorem State.goto_tsign (n : FsmState) (s : State) : (s.goto n).tsign = s.tsign := rfl
@[simp] theorem State.goto_tmag (n : FsmState) (s : State) : (s.goto n).tmag = s.tmag := rfl
@[simp] theorem State.goto_inp (n : FsmState) (s : State) : (s.goto n).inp = s.inp := rfl
@[simp] theorem State.goto_pending (n : FsmState) (s : State) : (s.goto n).pending = s.pending := rfl
@[simp] theorem State.goto_tick (n : FsmState) (s : State) : (s.goto n).tick = s.tick := rfl

/-! ### enter -/

@[simp] theorem State.enter_st (n : FsmState) (s : State) : (s.enter n).st = n.code := rfl
@[simp] theorem State.enter_tMark (n : FsmState) (s : State) : (s.enter n).tMark = s.inp.now := rfl
@[simp] theorem State.enter_frame (n : FsmState) (s : State) : (s.enter n).frame = s.frame := rfl
@[simp] theorem State.enter_bitcnt (n : FsmState) (s : State) : (s.enter n).bitcnt = s.bitcnt := rfl
@[simp] theorem State.enter_outcome (n : FsmState) (s : State) : (s.enter n).outcome = s.outcome := rfl
@[simp] theorem State.enter_done (n : FsmState) (s : State) : (s.enter n).done = s.done := rfl
@[simp] theorem State.enter_hum (n : FsmState) (s : State) : (s.enter n).hum = s.hum := rfl
@[simp] theorem State.enter_tsign (n : FsmState) (s : State) : (s.enter n).tsign = s.tsign := rfl
@[simp] theorem State.enter_tmag (n : FsmState) (s : State) : (s.enter n).tmag = s.tmag := rfl
@[simp] theorem State.enter_inp (n : FsmState) (s : State) : (s.enter n).inp = s.inp := rfl
@[simp] theorem State.enter_pending (n : FsmState) (s : State) : (s.enter n).pending = s.pending := rfl
@[simp] theorem State.enter_tick (n : FsmState) (s : State) : (s.enter n).tick = s.tick := rfl

/-! ### finish -/

@[simp] theorem State.finish_st (c : CallOutcome) (s : State) : (s.finish c).st = FsmState.idle.code := rfl
@[simp] theorem State.finish_tMark (c : CallOutcome) (s : State) : (s.finish c).tMark = s.tMark := rfl
@[simp] theorem State.finish_frame (c : CallOutcome) (s : State) : (s.finish c).frame = s.frame := rfl
@[simp] theorem State.finish_bitcnt (c : CallOutcome) (s : State) : (s.finish c).bitcnt = s.bitcnt := rfl
@[simp] theorem State.finish_outcome (c : CallOutcome) (s : State) : (s.finish c).outcome = c := rfl
@[simp] theorem State.finish_done (c : CallOutcome) (s : State) : (s.finish c).done = true := rfl
@[simp] theorem State.finish_hum (c : CallOutcome) (s : State) : (s.finish c).hum = s.hum := rfl
@[simp] theorem State.finish_tsign (c : CallOutcome) (s : State) : (s.finish c).tsign = s.tsign := rfl
@[simp] theorem State.finish_tmag (c : CallOutcome) (s : State) : (s.finish c).tmag = s.tmag := rfl
@[simp] theorem State.finish_inp (c : CallOutcome) (s : State) : (s.finish c).inp = s.inp := rfl
@[simp] theorem State.finish_pending (c : CallOutcome) (s : State) : (s.finish c).pending = s.pending := rfl
@[simp] theorem State.finish_tick (c : CallOutcome) (s : State) : (s.finish c).tick = s.tick := rfl

/-! ### clearCall -/

@[simp] theorem State.clearCall_st (s : State) : s.clearCall.st = s.st := rfl
@[simp] theorem State.clearCall_tMark (s : State) : s.clearCall.tMark = s.tMark := rfl
@[simp] theorem State.clearCall_frame (s : State) : s.clearCall.frame = 0 := rfl
@[simp] theorem State.clearCall_bitcnt (s : State) : s.clearCall.bitcnt = 0 := rfl
@[simp] theorem State.clearCall_outcome (s : State) : s.clearCall.outcome = .none := rfl
@[simp] theorem State.clearCall_done (s : State) : s.clearCall.done = s.done := rfl
@[simp] theorem State.clearCall_hum (s : State) : s.clearCall.hum = 0 := rfl
@[simp] theorem State.clearCall_tsign (s : State) : s.clearCall.tsign = false := rfl
@[simp] theorem State.clearCall_tmag (s : State) : s.clearCall.tmag = 0 := rfl
@[simp] theorem State.clearCall_inp (s : State) : s.clearCall.inp = s.inp := rfl
@[simp] theorem State.clearCall_pending (s : State) : s.clearCall.pending = s.pending := rfl
@[simp] theorem State.clearCall_tick (s : State) : s.clearCall.tick = s.tick := rfl

/-! ### storeBit -/

@[simp] theorem State.storeBit_st (b : Bool) (s : State) : (s.storeBit b).st = s.st := rfl
@[simp] theorem State.storeBit_tMark (b : Bool) (s : State) : (s.storeBit b).tMark = s.tMark := rfl
@[simp] theorem State.storeBit_frame (b : Bool) (s : State) : (s.storeBit b).frame = shiftIn s.frame b := rfl
@[simp] theorem State.storeBit_bitcnt (b : Bool) (s : State) : (s.storeBit b).bitcnt = s.bitcnt + 1 := rfl
@[simp] theorem State.storeBit_outcome (b : Bool) (s : State) : (s.storeBit b).outcome = s.outcome := rfl
@[simp] theorem State.storeBit_done (b : Bool) (s : State) : (s.storeBit b).done = s.done := rfl
@[simp] theorem State.storeBit_hum (b : Bool) (s : State) : (s.storeBit b).hum = s.hum := rfl
@[simp] theorem State.storeBit_tsign (b : Bool) (s : State) : (s.storeBit b).tsign = s.tsign := rfl
@[simp] theorem State.storeBit_tmag (b : Bool) (s : State) : (s.storeBit b).tmag = s.tmag := rfl
@[simp] theorem State.storeBit_inp (b : Bool) (s : State) : (s.storeBit b).inp = s.inp := rfl
@[simp] theorem State.storeBit_pending (b : Bool) (s : State) : (s.storeBit b).pending = s.pending := rfl
@[simp] theorem State.storeBit_tick (b : Bool) (s : State) : (s.storeBit b).tick = s.tick := rfl

/-! ### publish -/

@[simp] theorem State.publish_st (s : State) : s.publish.st = s.st := rfl
@[simp] theorem State.publish_tMark (s : State) : s.publish.tMark = s.tMark := rfl
@[simp] theorem State.publish_frame (s : State) : s.publish.frame = s.frame := rfl
@[simp] theorem State.publish_bitcnt (s : State) : s.publish.bitcnt = s.bitcnt := rfl
@[simp] theorem State.publish_outcome (s : State) : s.publish.outcome = s.outcome := rfl
@[simp] theorem State.publish_done (s : State) : s.publish.done = s.done := rfl
@[simp] theorem State.publish_hum (s : State) : s.publish.hum = humValue s.frame := rfl
@[simp] theorem State.publish_tsign (s : State) : s.publish.tsign = tsignValue s.frame := rfl
@[simp] theorem State.publish_tmag (s : State) : s.publish.tmag = tmagValue s.frame := rfl
@[simp] theorem State.publish_inp (s : State) : s.publish.inp = s.inp := rfl
@[simp] theorem State.publish_pending (s : State) : s.publish.pending = s.pending := rfl
@[simp] theorem State.publish_tick (s : State) : s.publish.tick = s.tick := rfl

/-! ### applyReset -/

@[simp] theorem State.applyReset_st (s : State) : s.applyReset.st = 0 := rfl
@[simp] theorem State.applyReset_tMark (s : State) : s.applyReset.tMark = 0 := rfl
@[simp] theorem State.applyReset_frame (s : State) : s.applyReset.frame = 0 := rfl
@[simp] theorem State.applyReset_bitcnt (s : State) : s.applyReset.bitcnt = 0 := rfl
@[simp] theorem State.applyReset_outcome (s : State) : s.applyReset.outcome = .none := rfl
@[simp] theorem State.applyReset_done (s : State) : s.applyReset.done = false := rfl
@[simp] theorem State.applyReset_hum (s : State) : s.applyReset.hum = 0 := rfl
@[simp] theorem State.applyReset_tsign (s : State) : s.applyReset.tsign = false := rfl
@[simp] theorem State.applyReset_tmag (s : State) : s.applyReset.tmag = 0 := rfl
@[simp] theorem State.applyReset_inp (s : State) : s.applyReset.inp = s.inp := rfl
@[simp] theorem State.applyReset_pending (s : State) : s.applyReset.pending = s.pending := rfl
@[simp] theorem State.applyReset_tick (s : State) : s.applyReset.tick = s.tick := rfl

/-! ### raiseTimeout, raiseChecksum -/

@[simp] theorem State.raiseTimeout_eq (s : State) : s.raiseTimeout = s.finish .timeout := rfl
@[simp] theorem State.raiseChecksum_eq (s : State) : s.raiseChecksum = s.finish .checksum := rfl

/-! ### presentNext leaves the block alone -/

@[simp] theorem State.presentNext_st (s : State) : s.presentNext.st = s.st := by
  unfold State.presentNext; split <;> rfl
@[simp] theorem State.presentNext_tMark (s : State) : s.presentNext.tMark = s.tMark := by
  unfold State.presentNext; split <;> rfl
@[simp] theorem State.presentNext_frame (s : State) : s.presentNext.frame = s.frame := by
  unfold State.presentNext; split <;> rfl
@[simp] theorem State.presentNext_bitcnt (s : State) : s.presentNext.bitcnt = s.bitcnt := by
  unfold State.presentNext; split <;> rfl
@[simp] theorem State.presentNext_outcome (s : State) : s.presentNext.outcome = s.outcome := by
  unfold State.presentNext; split <;> rfl
@[simp] theorem State.presentNext_done (s : State) : s.presentNext.done = s.done := by
  unfold State.presentNext; split <;> rfl
@[simp] theorem State.presentNext_hum (s : State) : s.presentNext.hum = s.hum := by
  unfold State.presentNext; split <;> rfl
@[simp] theorem State.presentNext_tsign (s : State) : s.presentNext.tsign = s.tsign := by
  unfold State.presentNext; split <;> rfl
@[simp] theorem State.presentNext_tmag (s : State) : s.presentNext.tmag = s.tmag := by
  unfold State.presentNext; split <;> rfl

/-- With a sample pending, that sample is presented. -/
theorem State.presentNext_cons {s : State} {x : Inputs} {xs : List Inputs} (h : s.pending = x :: xs) :
    s.presentNext = { s with inp := x, pending := xs } := by
  unfold State.presentNext; rw [h]

/-- With none pending, a free one is. -/
theorem State.presentNext_nil {s : State} (h : s.pending = []) :
    s.presentNext = { s with inp := Config.freeInputs s.tick, tick := s.tick + 1 } := by
  unfold State.presentNext; rw [h]

/-! ### placeWord -/

@[simp] theorem State.placeWord_tMark (s : State) (w : Nat) : (s.placeWord w).tMark = s.tMark := rfl
@[simp] theorem State.placeWord_frame (s : State) (w : Nat) : (s.placeWord w).frame = s.frame := rfl
@[simp] theorem State.placeWord_bitcnt (s : State) (w : Nat) : (s.placeWord w).bitcnt = s.bitcnt := rfl
@[simp] theorem State.placeWord_outcome (s : State) (w : Nat) : (s.placeWord w).outcome = s.outcome := rfl
@[simp] theorem State.placeWord_done (s : State) (w : Nat) : (s.placeWord w).done = s.done := rfl
@[simp] theorem State.placeWord_hum (s : State) (w : Nat) : (s.placeWord w).hum = s.hum := rfl
@[simp] theorem State.placeWord_tsign (s : State) (w : Nat) : (s.placeWord w).tsign = s.tsign := rfl
@[simp] theorem State.placeWord_tmag (s : State) (w : Nat) : (s.placeWord w).tmag = s.tmag := rfl
@[simp] theorem State.placeWord_pending (s : State) (w : Nat) : (s.placeWord w).pending = s.pending := rfl
@[simp] theorem State.placeWord_tick (s : State) (w : Nat) : (s.placeWord w).tick = s.tick := rfl

/-! ### Reads -/

@[simp] theorem State.lineRead_eq (s : State) : s.lineRead = s.inp.line := rfl
@[simp] theorem State.now_eq (s : State) : s.now = s.inp.now := rfl
theorem State.elapsed_eq (s : State) : s.elapsed = s.inp.now - s.tMark := rfl
theorem duration_eq (tr tf : U32) : duration tr tf = tf - tr := rfl

end Sys2Proof.Machine
end

