-- ==== Sys2Proof/Laws/Ops.lean ====
section
/-! SUPPORT. What each shared operation can do, and what a step can do, said once. -/

namespace Sys2Proof.Machine

open Sys2Proof

/-! ### The two timing primitives -/

/-- R121: a HOLD goes on after its time, or writes nothing. -/
theorem State.hold_cases (T : Nat) (n : FsmState) (s : State) :
    (T ≤ s.elapsed.toNat ∧ s.hold T n = s.enter n) ∨ (s.elapsed.toNat < T ∧ s.hold T n = s) := by
  unfold State.hold
  by_cases h : T ≤ s.elapsed.toNat
  · exact .inl ⟨h, if_pos h⟩
  · exact .inr ⟨Nat.lt_of_not_le h, if_neg h⟩

/-- R120, R151: a wait matches, else times out, else writes nothing. -/
theorem State.awaitLevel_cases (L : Bool) (T : Nat) (f : State → State) (s : State) :
    (s.inp.line = L ∧ s.awaitLevel L T f = f s) ∨
    (s.inp.line ≠ L ∧ T < s.elapsed.toNat ∧ s.awaitLevel L T f = s.finish .timeout) ∨
    (s.inp.line ≠ L ∧ s.elapsed.toNat ≤ T ∧ s.awaitLevel L T f = s) := by
  unfold State.awaitLevel
  by_cases h : s.inp.line = L
  · exact .inl ⟨h, if_pos h⟩
  · by_cases ht : T < s.elapsed.toNat
    · exact .inr (.inl ⟨h, ht, (if_neg h).trans (if_pos ht)⟩)
    · exact .inr (.inr ⟨h, Nat.le_of_not_lt ht, (if_neg h).trans (if_neg ht)⟩)

/-- R151: what the end of a pulse writes. -/
theorem State.endPulse_eq (s : State) :
    s.endPulse = (s.storeBit (bitval (s.inp.now - s.tMark))).enter
      (if (s.bitcnt + 1).toNat = 40 then .validate else .bitWaitRise) := rfl

/-- The fetch word of a placed table word is that word. -/
@[simp] theorem State.placeWord_fetchWord (s : State) (w : Nat) : (s.placeWord w).fetchWord = BitVec.ofNat 6 w :=
  fetchWordOf_fields (BitVec.ofNat 6 w)

/-! ### Dispatch -/

/-- Every row answers a next state: no row of the block faults or refuses (R80). -/
theorem exec_next (i : Instr) (s : State) : ∃ t, exec i s = .next t := by
  cases i <;> exact ⟨_, rfl⟩

/-- No row touches the environment's samples. -/
theorem exec_env {i : Instr} {s t : State} (h : exec i s = .next t) :
    t.inp = s.inp ∧ t.pending = s.pending ∧ t.tick = s.tick := by
  have hold : ∀ T n (u : State), (u.hold T n).inp = u.inp ∧ (u.hold T n).pending = u.pending ∧
      (u.hold T n).tick = u.tick := fun T n u => by
    obtain ⟨-, e⟩ | ⟨-, e⟩ := u.hold_cases T n <;> rw [e] <;> exact ⟨rfl, rfl, rfl⟩
  have await : ∀ L T f (u : State), (f u).inp = u.inp ∧ (f u).pending = u.pending ∧ (f u).tick = u.tick →
      (u.awaitLevel L T f).inp = u.inp ∧ (u.awaitLevel L T f).pending = u.pending ∧
      (u.awaitLevel L T f).tick = u.tick := fun L T f u hf => by
    obtain ⟨-, e⟩ | ⟨-, -, e⟩ | ⟨-, -, e⟩ := u.awaitLevel_cases L T f <;> rw [e]
    · exact hf
    · exact ⟨rfl, rfl, rfl⟩
    · exact ⟨rfl, rfl, rfl⟩
  cases i <;> cases h
  case idle | convert | decode => exact ⟨rfl, rfl, rfl⟩
  case validate => split <;> exact ⟨rfl, rfl, rfl⟩
  case startLow | startHigh => exact hold _ _ _
  case hsWaitLow1 | hsWaitHigh | hsWaitLow2 | bitWaitRise | bitWaitFall => exact await _ _ _ _ ⟨rfl, rfl, rfl⟩

/-! ### The step -/

/-- R100 with `rst = 1`. -/
theorem step_reset {s : State} (h : s.inp.rst = true) : step s = .next s.applyReset.presentNext := by
  simp [step, State.fetchWord, h, decodeWord_reset, rejectedStep, presentAfter]

/-- R71: a reserved code without reset. -/
theorem step_reserved {s : State} (h : s.inp.rst = false) (hc : 10 ≤ s.st.toNat) :
    step s = .fault (.reservedState s.st) := by
  simp [step, State.fetchWord, h, decodeWord_reserved _ hc, rejectedStep, presentAfter]

/-- R100 without reset: the row of the state, then the next sample. -/
theorem step_row {s : State} {n : FsmState} (h : s.inp.rst = false) (hc : s.st = n.code) :
    step s = presentAfter (exec (n.row s.inp.req) s) := by
  simp [step, State.fetchWord, h, hc, decodeWord_code]

/-- Everything a step that answers a next state can have done. -/
theorem step_cases {s t : State} (h : step s = .next t) :
    (s.inp.rst = true ∧ t = s.applyReset.presentNext) ∨
    (s.inp.rst = false ∧ ∃ n u, s.st = FsmState.code n ∧ exec (n.row s.inp.req) s = .next u ∧ t = u.presentNext) := by
  cases hr : s.inp.rst with
  | true =>
    rw [step_reset hr] at h
    cases h
    exact .inl ⟨rfl, rfl⟩
  | false =>
    cases hc : FsmState.ofCode s.st with
    | none =>
      rw [step_reserved hr (FsmState.ofCode_eq_none.1 hc)] at h
      cases h
    | some n =>
      have hn := FsmState.ofCode_eq_some.1 hc
      obtain ⟨u, hu⟩ := exec_next (n.row s.inp.req) s
      rw [step_row hr hn, hu] at h
      cases h
      exact .inr ⟨rfl, n, u, hn, hu, rfl⟩

end Sys2Proof.Machine

namespace Sys2Proof.Safety

open Sys2Proof Sys2Proof.Machine

/-! ### Runs and samples -/

@[simp] theorem runFor_zero (s : State) : runFor 0 s = .next s := rfl

/-- One more step, taken first. -/
theorem runFor_succ {n : Nat} {s t : State} (h : step s = .next t) : runFor (n + 1) s = runFor n t := by
  have h' : Sys2Proof.core.step s = .next t := h
  simp only [runFor, Host.Core.run, h']
  rfl

@[simp] theorem unitSamples_length (t : U32) (ls : List (Bool × Bool)) : (unitSamples t ls).length = ls.length := by
  induction ls generalizing t with
  | nil => rfl
  | cons x xs ih => simp [unitSamples, ih]

/-- One sample per microsecond never resets. -/
theorem unitSamples_noReset (t : U32) (ls : List (Bool × Bool)) :
    (unitSamples t ls).all (fun x => !x.rst) = true := by
  induction ls generalizing t with
  | nil => rfl
  | cons x xs ih => simp [unitSamples, ih]

/-- Consecutive instants never decrease and are at most 1 us apart. -/
theorem premises_range' (a n : Nat) :
    clockNeverDecreases (a :: List.range' (a + 1) n) = true ∧ samplingPremise (a :: List.range' (a + 1) n) = true := by
  induction n generalizing a with
  | zero => exact ⟨rfl, rfl⟩
  | succ n ih =>
    obtain ⟨h₁, h₂⟩ := ih (a + 1)
    simp [List.range'_succ, clockNeverDecreases, samplingPremise, h₁, h₂]

end Sys2Proof.Safety
end

