-- ==== Sys2Proof/Laws/PerInstr.lean ====
section
/-! SUPPORT. Facts stated for every instruction as encoding. -/

namespace Sys2Proof.Laws.RowEncoding

open Sys2Proof

/-- The encoded word is one of the row's own words, and its bits outside the row's mask are zero (R84). -/
def Statement (i : Instr) : Prop :=
  rowAccepts i (encode i) = true ∧ encode i &&& ~~~(opcodeRow i).mask = 0

theorem idle : Statement .idle := by unfold Statement; decide
theorem startLow : Statement .startLow := by unfold Statement; decide
theorem startHigh : Statement .startHigh := by unfold Statement; decide
theorem hsWaitLow1 : Statement .hsWaitLow1 := by unfold Statement; decide
theorem hsWaitHigh : Statement .hsWaitHigh := by unfold Statement; decide
theorem hsWaitLow2 : Statement .hsWaitLow2 := by unfold Statement; decide
theorem bitWaitRise : Statement .bitWaitRise := by unfold Statement; decide
theorem bitWaitFall : Statement .bitWaitFall := by unfold Statement; decide
theorem validate : Statement .validate := by unfold Statement; decide
theorem convert : Statement .convert := by unfold Statement; decide
theorem decode : Statement .decode := by unfold Statement; decide

end Sys2Proof.Laws.RowEncoding
end

