-- ==== Sys2Proof/Machine/Stimulus.lean ====
section
/-! DEFINITION. The stimulus notation of 30_encoding.md R82 and its macros R83: a caller script, a line waveform and a
clock schedule. R82 says it is the test harness's model of the line, not a rule of the block; the step does not use it. -/

namespace Sys2Proof.Machine

open Sys2Proof

/-! ### Statements (R82) -/

/-- The caller's statements. -/
inductive CallerStmt where
  /-- `CLOCK t0 STEP 1` -/
  | clock (t0 : Nat)
  /-- `RST` -/
  | rst
  /-- `REQ` -/
  | req
  /-- `RUN n` -/
  | run (n : Nat)
  /-- `RUN UNTIL IDLE` -/
  | runUntilIdle
  deriving DecidableEq, Repr

/-- The waveform's statements. Instants are unwrapped (DEDUCED, log 9). -/
inductive WaveStmt where
  /-- `LINE AT t` -/
  | lineAt (t : Nat)
  /-- `LEVEL v FOR n` -/
  | level (v : Bool) (n : Nat)
  /-- `LEVEL v FOREVER` -/
  | levelForever (v : Bool)
  deriving DecidableEq, Repr

/-! ### Macros (R83) -/

/-- `ACK` -/
def waveAck : List WaveStmt := [.level false 80, .level true 80]

/-- `PULSE h` -/
def wavePulse (h : Nat) : List WaveStmt := [.level false 50, .level true h]

/-- `BIT0` is `PULSE 28`, `BIT1` is `PULSE 70`. -/
def waveBit (b : Bool) : List WaveStmt := wavePulse (if b then 70 else 28)

/-- `BYTE v`: bit 7 first. -/
def waveByte (v : Byte) : List WaveStmt :=
  [7, 6, 5, 4, 3, 2, 1, 0].flatMap fun k => waveBit (v.getLsbD k)

/-- `FRAME a b c d e` -/
def waveFrame (a b c d e : Byte) : List WaveStmt :=
  [a, b, c, d, e].flatMap waveByte ++ [.level false 50, .levelForever true]

/-- `RESPOND d` -/
def waveRespond (d : Nat) : List WaveStmt := [.level true d]

/-! ### The harness -/

/-- The level a waveform builds at instant `t`; `at?` is where the next LEVEL starts, none before the first
LINE AT. Where no statement reaches, the line reads 1. DESIGN CHOICE (safe, log 14): R82 does not say what the line reads
where LEVEL statements of two LINE AT blocks cover one instant; here the statement written earlier wins. -/
def waveLevel : List WaveStmt → Option Nat → Nat → Bool
  | [], _, _ => true
  | .lineAt t0 :: ws, _, t => waveLevel ws (some t0) t
  | .level v n :: ws, some a, t => if a ≤ t ∧ t < a + n then v else waveLevel ws (some (a + n)) t
  | .levelForever v :: ws, some a, t => if a ≤ t then v else waveLevel ws (some a) t
  | .level _ _ :: ws, none, t => waveLevel ws none t
  | .levelForever _ :: ws, none, t => waveLevel ws none t

/-- The line the harness presents: the block's own drive where it drives, else the waveform. -/
def harnessLine (ws : List WaveStmt) (t : Nat) (s : State) : Bool :=
  if s.lineOe then s.lineOut else waveLevel ws none t

/-- One harness step at instant `t`; it answers the next instant and the next state. -/
def harnessStep (ws : List WaveStmt) (rst req : Bool) (t : Nat) (s : State) :
    Host.Outcome (Nat × State) Fault Refusal :=
  match step { s with inp := { rst, req, line := harnessLine ws t s, now := BitVec.ofNat 32 t } } with
  | .next s' => .next (t + 1, s')
  | .fault r => .fault r
  | .refused r => .refused r

/-- `RUN n`. -/
def harnessRun (ws : List WaveStmt) : Nat → Nat → State → Host.Outcome (Nat × State) Fault Refusal
  | 0, t, s => .next (t, s)
  | n + 1, t, s =>
    match harnessStep ws false false t s with
    | .next (t', s') => harnessRun ws n t' s'
    | stop => stop

/-- `RUN UNTIL IDLE`, cut off after `fuel` steps. -/
def harnessRunUntilIdle (ws : List WaveStmt) : Nat → Nat → State → Host.Outcome (Nat × State) Fault Refusal
  | 0, t, s => .next (t, s)
  | fuel + 1, t, s =>
    match harnessStep ws false false t s with
    | .next (t', s') =>
      if s'.st = FsmState.idle.code then .next (t', s') else harnessRunUntilIdle ws fuel t' s'
    | stop => stop

/-- A caller script against a waveform, `fuel` bounding each RUN UNTIL IDLE. -/
def playScript (fuel : Nat) (ws : List WaveStmt) :
    List CallerStmt → Nat → State → Host.Outcome (Nat × State) Fault Refusal
  | [], t, s => .next (t, s)
  | stmt :: rest, t, s =>
    let played : Host.Outcome (Nat × State) Fault Refusal :=
      match stmt with
      | .clock t0 => .next (t0, s)
      | .rst => harnessStep ws true false t s
      | .req => harnessStep ws false true t s
      | .run n => harnessRun ws n t s
      | .runUntilIdle => harnessRunUntilIdle ws fuel t s
    match played with
    | .next (t', s') => playScript fuel ws rest t' s'
    | stop => stop

end Sys2Proof.Machine
end

