-- ==== Sys2Proof/Laws/Stimulus.lean ====
section
/-! SUPPORT. The harness of R82 as an environment: it respects the line's ownership, and its line floats high. -/

namespace Sys2Proof.Safety

open Sys2Proof Sys2Proof.Machine

/-- R82, R236: every sample the harness presents reads the block's own drive while the block drives. -/
theorem harness_lineOwned (ws : List WaveStmt) (rst req : Bool) (t : Nat) (s : State) :
    lineOwned { s with inp := { rst, req, line := harnessLine ws t s, now := BitVec.ofNat 32 t } } = true := by
  have h : ∀ x : Inputs, ({ s with inp := x } : State).lineOe = s.lineOe ∧ ({ s with inp := x } : State).lineOut = s.lineOut :=
    fun _ => ⟨rfl, rfl⟩
  simp only [lineOwned, (h _).1, (h _).2, harnessLine]
  cases s.lineOe <;> simp

/-- R82, R236: with no waveform and no drive the line reads 1. -/
theorem harness_floats_high (t : Nat) (s : State) (h : s.lineOe = false) : harnessLine [] t s = true := by
  simp [harnessLine, h, waveLevel]

end Sys2Proof.Safety
end

