-- ==== Sys2Proof/Tests/Slice0.lean ====
section
/-! SUPPORT. Tests: well-formedness, decoding of words written out from 30_encoding.md, single steps whose expected
results are the vectors of 95_test_vectors.md, and a witness for the hypotheses of every statement that has some. -/

namespace Sys2Proof.Tests

open Sys2Proof Sys2Proof.Machine Sys2Proof.Safety

/-! ### Helpers -/

/-- An idle sample at instant `now` with the given level. -/
def sample (line : Bool) (now : U32) : Inputs := { rst := false, req := false, line := line, now := now }

/-- A block in state `c` since `mark`, the coming step reading `line` at `now`. -/
def atState (c : StCode) (mark : U32) (line : Bool) (now : U32) : State :=
  { State.reset with st := c, tMark := mark, inp := sample line now, pending := [sample true now] }

/-- The outcome is a next state with the property. -/
def answers (o : Host.Outcome State Fault Refusal) (p : State → Bool) : Bool :=
  match o with
  | .next t => p t
  | _ => false

/-- The outcome is this fault. -/
def faultsWith (o : Host.Outcome State Fault Refusal) (r : Fault) : Bool :=
  match o with
  | .fault r' => decide (r' = r)
  | _ => false

/-! ### Well-formedness -/

theorem test_default_cfg_wellFormed : (({} : Cfg).wellFormed) = true := by decide
theorem test_every_field_of_time_checked :
    ({ tStartLow := 2 ^ 32 } : Cfg).wellFormed = false ∧ ({ tStartHigh := 2 ^ 32 } : Cfg).wellFormed = false ∧
    ({ tHsTimeout := 2 ^ 32 } : Cfg).wellFormed = false ∧ ({ tBitTimeout := 2 ^ 32 } : Cfg).wellFormed = false ∧
    ({ tBitThreshold := 2 ^ 32 } : Cfg).wellFormed = false := by decide
theorem test_zero_bits_refused : ({ nBits := 0 } : Cfg).wellFormed = false := by decide
theorem test_too_many_bits_refused : ({ nBits := 41 } : Cfg).wellFormed = false := by decide

/-! ### Decoding (30_encoding.md R70, R73; the word is rst, req, st3..st0) -/

theorem test_decode_idle : decodeWord 0b000000 = .ok .idle := by decide
theorem test_decode_decode : decodeWord 0b010000 = .ok .decode := by decide
theorem test_decode_startLow : decodeWord 0b000001 = .ok .startLow := by decide
theorem test_decode_startHigh : decodeWord 0b000010 = .ok .startHigh := by decide
theorem test_decode_hsWaitLow1 : decodeWord 0b000011 = .ok .hsWaitLow1 := by decide
theorem test_decode_hsWaitHigh : decodeWord 0b000100 = .ok .hsWaitHigh := by decide
theorem test_decode_hsWaitLow2 : decodeWord 0b000101 = .ok .hsWaitLow2 := by decide
theorem test_decode_bitWaitRise : decodeWord 0b000110 = .ok .bitWaitRise := by decide
theorem test_decode_bitWaitFall : decodeWord 0b000111 = .ok .bitWaitFall := by decide
theorem test_decode_validate : decodeWord 0b001000 = .ok .validate := by decide
theorem test_decode_convert : decodeWord 0b001001 = .ok .convert := by decide
theorem test_decode_request_ignored_in_call : decodeWord 0b011001 = .ok .convert := by decide
theorem test_decode_reserved : decodeWord 0b001010 = .error (.reservedState 10) ∧
    decodeWord 0b011111 = .error (.reservedState 15) := by decide
theorem test_decode_reset : decodeWord 0b110000 = .error .resetAsserted := by decide
theorem test_decode_bytes : decodeBytes [0x10, 0x07] = .ok (.decode, [0x07]) ∧
    decodeBytes [0x47] = .error (.unusedBits 0x47) ∧ decodeBytes [] = .error .noByte ∧
    decodeBytes [0x0C] = .error (.word (.reservedState 12)) := by decide
theorem test_decodeTableWord : decodeTableWord 8 9 = some .convert ∧ decodeTableWord 8 16 = some .decode ∧
    decodeTableWord 8 10 = none ∧ decodeTableWord 8 32 = none ∧ decodeTableWord 8 256 = none := by decide
theorem test_withFetchWord_runs_decode :
    answers (step (State.reset.withFetchWord 8 16)) (fun t => t.st == 1) = true := by decide
theorem test_outcome_codes : CallOutcome.none.code = 0 ∧ CallOutcome.ok.code = 1 ∧
    CallOutcome.timeout.code = 2 ∧ CallOutcome.checksum.code = 3 := by decide

/-! ### Single steps (95_test_vectors.md; the vector's name ends the theorem's) -/

theorem test_decode_clears_C1 :
    answers (step { atState 0 0 true 1000 with
        inp := { rst := false, req := true, line := true, now := 1000 }, outcome := .ok, hum := 652, done := true })
      (fun t => t.st == 1 && t.tMark == 1000 && t.hum == 0 && !t.done &&
        outputs t == { lineOe := true, lineOut := false, busy := true, done := false, outcome := 0,
                       humTenths := 0, tempSign := false, tempMag := 0, tempTenths := 0 }) = true := by decide
theorem test_idle_keeps_outcome_C2 :
    answers (step { atState 0 0 false 500 with outcome := .timeout, done := true })
      (fun t => !t.done && t.outcome == .timeout && t.st == 0) = true := by decide
theorem test_reserved_C5 : faultsWith (step (atState 12 0 true 0)) (.reservedState 12) = true := by decide
theorem test_reset_wins_C4 :
    answers (step { atState 7 50 false 90 with
        inp := { rst := true, req := true, line := false, now := 90 }, bitcnt := 7 })
      (fun t => t.st == 0 && t.bitcnt == 0 && t.tMark == 0 && t.outcome == .none && !t.done) = true := by decide
theorem test_startLow_leaves_H2 :
    answers (step (atState 1 1000 true 19000)) (fun t => t.st == 2 && t.tMark == 19000) = true := by decide
theorem test_startLow_across_wrap_H3 :
    answers (step (atState 1 0xFFFFF000 true 0x3650)) (fun t => t.st == 2 && t.tMark == 0x3650) = true := by decide
theorem test_startHigh_stays_H5 :
    answers (step (atState 2 19000 false 19029)) (fun t => t.st == 2 && t.tMark == 19000) = true := by decide
theorem test_startHigh_releases_H6 :
    answers (step (atState 2 19000 true 19030)) (fun t => t.st == 3 && t.tMark == 19030 && !t.lineOe) = true := by decide
theorem test_hsWaitLow1_match_wins_W4 :
    answers (step (atState 3 19030 false 19131)) (fun t => t.st == 4 && t.tMark == 19131) = true := by decide
theorem test_hsWaitLow1_times_out_across_wrap_W11 :
    answers (step (atState 3 0xFFFFFFC0 true 0x25)) (fun t => t.st == 0 && t.outcome == .timeout && t.done) = true := by
  decide
theorem test_hsWaitHigh_matches_W6 :
    answers (step (atState 4 19050 true 19130)) (fun t => t.st == 5 && t.tMark == 19130) = true := by decide
theorem test_hsWaitHigh_times_out_W7 :
    answers (step (atState 4 19050 false 19151)) (fun t => t.st == 0 && t.outcome == .timeout) = true := by decide
theorem test_hsWaitLow2_matches_W8 :
    answers (step (atState 5 19130 false 19210)) (fun t => t.st == 6 && t.tMark == 19210 && t.bitcnt == 0) = true := by
  decide
theorem test_hsWaitLow2_times_out_W9 :
    answers (step (atState 5 19130 true 19231)) (fun t => t.outcome == .timeout && t.done) = true := by decide
theorem test_bitWaitRise_matches_B1 :
    answers (step (atState 6 2000 true 2050)) (fun t => t.st == 7 && t.tMark == 2050) = true := by decide
theorem test_bitWaitRise_times_out_B3 :
    answers (step { atState 6 2000 false 2101 with bitcnt := 12 })
      (fun t => t.outcome == .timeout && t.bitcnt == 12) = true := by decide
theorem test_bitWaitFall_boundary_is_zero_B5 :
    answers (step { atState 7 1000 false 1040 with frame := 0x5, bitcnt := 3 })
      (fun t => t.frame == 0xA && t.bitcnt == 4 && t.tMark == 1040 && t.st == 6) = true := by decide
theorem test_bitWaitFall_last_bit_B10 :
    answers (step { atState 7 1000 false 1028 with frame := 0x7FFFFFFFFF, bitcnt := 39 })
      (fun t => t.frame == 0xFFFFFFFFFE && t.bitcnt == 40 && t.st == 8) = true := by decide
theorem test_bitval_table :
    [0, 1, 28, 39, 40, 41, 70, 100, 101, 0xFFFFFFFF].map bitval =
      [false, false, false, false, false, true, true, true, true, true] := by decide
theorem test_validate_low_eight_bits_K7 :
    answers (step { atState 8 0 true 0 with frame := 0xFFFFFFFFFC }) (fun t => t.st == 9) = true := by decide
theorem test_validate_fails_T1 :
    answers (step { atState 8 0 true 0 with frame := 0x028C0111A1 })
      (fun t => t.st == 0 && t.outcome == .checksum && t.done && t.hum == 0 && t.frame == 0x028C0111A1) = true := by
  decide
theorem test_convert_negative_X2 :
    answers (step { atState 9 0 true 0 with frame := 0x028C811120 })
      (fun t => t.hum == 652 && t.tsign && t.tmag == 273 && t.tempTenths == 0xFEEF && t.outcome == .ok && t.done)
      = true := by decide
theorem test_convert_negative_zero_X4 :
    answers (step { atState 9 0 true 0 with frame := 0xFFFF80007E })
      (fun t => t.hum == 65535 && t.tsign && t.tmag == 0 && t.tempTenths == 0) = true := by decide

/-! ### The stimulus notation (R82, R83) -/

theorem test_wave_byte : (waveByte 0x02).length = 16 ∧ waveLevel (.lineAt 0 :: waveByte 0x02) none 49 = false ∧
    waveLevel (.lineAt 0 :: waveByte 0x02) none 50 = true ∧ waveLevel (.lineAt 0 :: waveByte 0x02) none 78 = false := by
  decide
theorem test_wave_earlier_statement_wins :
    waveLevel [.lineAt 5, .level false 3, .lineAt 6, .level true 3] none 6 = false := by decide
theorem test_harness_drives_low : harnessLine [] 0 (atState 1 0 true 0) = false ∧
    harnessLine [.lineAt 5, .level false 3] 5 (atState 3 0 true 0) = false ∧
    harnessLine [.lineAt 5, .level false 3] 8 (atState 3 0 true 0) = true := by decide

/-! ### Witnesses: the step and its fields -/

theorem test_witness_DecoderMatchesOpcodeTable :
    (0b100000 : FetchWord).getLsbD 5 = true ∧
    ((0b011010 : FetchWord).getLsbD 5 = false ∧ 10 ≤ ((0b011010 : FetchWord).extractLsb' 0 4).toNat) ∧
    ((0b011001 : FetchWord).getLsbD 5 = false ∧ ((0b011001 : FetchWord).extractLsb' 0 4).toNat ≤ 9) := by decide
theorem test_witness_DecodeOfEncodeIsIdentity :
    Instr.decode.wellFormed = true ∧ decodeWord 0b011001 = .ok .convert := by decide
theorem test_witness_RequestIsCommandOnlyInIdle :
    decodeWord { atState 0 0 true 0 with inp := { sample true 0 with req := true } }.fetchWord = .ok .decode ∧
    (1 : StCode) ≠ 0b0000 := by decide
theorem test_witness_StepRunsDecodedInstruction :
    decodeWord (atState 9 0 true 0).fetchWord = .ok .convert ∧ (atState 9 0 true 0).pending = [sample true 0] ∧
    decodeWord State.reset.fetchWord = .ok .idle ∧ State.reset.pending = [] := by decide
theorem test_witness_DispatchByStateCode :
    (atState 0 0 true 0).inp.rst = false ∧ (atState 0 0 true 0).inp.req = false ∧ (atState 0 0 true 0).st = 0 ∧
    ({ atState 0 0 true 0 with inp := { sample true 0 with req := true } } : State).inp.req = true ∧
    [1, 2, 3, 4, 5, 6, 7, 8, 9].all (fun c => (atState c 0 true 0).st == c && !(atState c 0 true 0).inp.rst) = true ∧
    10 ≤ (atState 10 0 true 0).st.toNat := by decide
theorem test_witness_ReservedCodeIsTheOnlyStop :
    ((atState 10 0 true 0).inp.rst = false ∧ 10 ≤ (atState 10 0 true 0).st.toNat) ∧
    step (atState 15 0 true 0) = .fault (.reservedState 15) ∧
    (∃ t, exec .convert (atState 9 0 true 0) = .next t) ∧ (∃ t, runFor 2 (launch (sample true 0) [sample true 1] 0) = .next t) :=
  ⟨by decide, rfl, ⟨_, rfl⟩, ⟨_, rfl⟩⟩
theorem test_witness_ResetStepWritesResetValues :
    ({ atState 15 3 true 0 with inp := { sample true 0 with rst := true } } : State).inp.rst = true := by decide
theorem test_witness_IdleHoldResult :
    (atState 0 0 true 0).inp.rst = false ∧ (atState 0 0 true 0).inp.req = false ∧ (atState 0 0 true 0).st = 0b0000 := by
  decide
theorem test_witness_DecodeCommandStartsCall :
    let s : State := { atState 0 0 true 0 with inp := { sample true 0 with req := true } }
    s.inp.rst = false ∧ s.inp.req = true ∧ s.st = 0b0000 ∧ ∃ t, exec .decode s = .next t :=
  ⟨rfl, rfl, rfl, _, rfl⟩
theorem test_witness_RequestIgnoredDuringCall : (atState 1 1000 true 5000).st ≠ 0b0000 := by decide
theorem test_witness_NoStateCarriedBetweenCalls :
    let s₁ : State := { atState 0 0 true 0 with inp := { sample true 0 with req := true } }
    let s₂ : State := { s₁ with frame := 0x028C0111A0, bitcnt := 40, outcome := .ok, hum := 652, tMark := 9 }
    s₁.st = 0b0000 ∧ s₂.st = 0b0000 ∧ s₁.inp = s₂.inp ∧ s₁.pending = s₂.pending ∧ s₁.tick = s₂.tick ∧
    s₁.inp.rst = false ∧ s₁.inp.req = true := by decide

/-! ### Witnesses: the timing primitives and the waits, each clause at its boundary -/

theorem test_witness_WaitTestsLevelThenTimeout :
    (atState 3 0 false 101).inp.line = false ∧
    ((atState 3 0 true 101).inp.line ≠ false ∧ 100 < ((atState 3 0 true 101).inp.now - (atState 3 0 true 101).tMark).toNat) ∧
    ((atState 3 0 true 100).inp.line ≠ false ∧ ((atState 3 0 true 100).inp.now - (atState 3 0 true 100).tMark).toNat ≤ 100) := by
  decide
theorem test_witness_HoldLastsAtLeastItsTime :
    30 ≤ ((atState 2 0 true 30).inp.now - (atState 2 0 true 30).tMark).toNat ∧
    ((atState 2 0 true 29).inp.now - (atState 2 0 true 29).tMark).toNat < 30 := by decide
theorem test_witness_StartLowResult :
    18000 ≤ ((atState 1 0 true 18000).inp.now - (atState 1 0 true 18000).tMark).toNat ∧
    ((atState 1 0 true 17999).inp.now - (atState 1 0 true 17999).tMark).toNat < 18000 ∧
    (atState 1 0 true 0).st = 0b0001 ∧ (atState 1 0 true 0).inp.rst = false := by decide
theorem test_witness_StartHighResult :
    30 ≤ ((atState 2 0 true 30).inp.now - (atState 2 0 true 30).tMark).toNat ∧
    ((atState 2 0 true 29).inp.now - (atState 2 0 true 29).tMark).toNat < 30 ∧
    (atState 2 0 true 0).st = 0b0010 ∧ (atState 2 0 true 0).inp.rst = false := by decide
/-- The clauses of the waits for a low level (HS_WAIT_LOW1, HS_WAIT_LOW2, BIT_WAIT_FALL), in each of their states. -/
theorem test_witness_waits_for_low :
    [0b0011, 0b0101, 0b0111].all (fun c =>
      !(atState c 0 false 500).inp.line &&
      ((atState c 0 true 101).inp.line && decide (100 < ((atState c 0 true 101).inp.now - (atState c 0 true 101).tMark).toNat)) &&
      ((atState c 0 true 100).inp.line && decide (((atState c 0 true 100).inp.now - (atState c 0 true 100).tMark).toNat ≤ 100)) &&
      (atState c 0 true 0).st == c && !(atState c 0 true 0).inp.rst) = true := by decide
/-- The clauses of the waits for a high level (HS_WAIT_HIGH, BIT_WAIT_RISE), in each of their states. -/
theorem test_witness_waits_for_high :
    [0b0100, 0b0110].all (fun c =>
      (atState c 0 true 500).inp.line &&
      (!(atState c 0 false 101).inp.line && decide (100 < ((atState c 0 false 101).inp.now - (atState c 0 false 101).tMark).toNat)) &&
      (!(atState c 0 false 100).inp.line && decide (((atState c 0 false 100).inp.now - (atState c 0 false 100).tMark).toNat ≤ 100)) &&
      (atState c 0 true 0).st == c && !(atState c 0 true 0).inp.rst) = true := by decide
theorem test_witness_HsWaitLow2_in_inv : (atState 5 0 false 80).st = 0b0101 ∧ Inv (atState 5 0 false 80) := by decide
theorem test_witness_PulseDurationAndBit : 2 ^ 32 - 1 < 2 ^ 32 ∧ bitval 41 = true := by decide
theorem test_witness_FortyBitsFillTheFrame :
    (List.replicate 40 true).length = 40 ∧ 39 < (List.replicate 40 true).length := by decide

/-! ### Witnesses: validation, conversion, ports, failures -/

/-- A block that validates `f` after 40 bits. -/
def validating (f : FrameWord) : State := { atState 8 21708 true 21709 with frame := f, bitcnt := 40 }

theorem test_witness_ValidateResult :
    csum 0x028C0111A0 = (0x028C0111A0 : FrameWord).extractLsb' 0 8 ∧
    csum 0x028C0111A1 ≠ (0x028C0111A1 : FrameWord).extractLsb' 0 8 ∧
    (validating 0).st = 0b1000 ∧ (validating 0).inp.rst = false := by decide
theorem test_witness_ConvertResult : (atState 9 0 true 0).st = 0b1001 ∧ (atState 9 0 true 0).inp.rst = false := by decide
theorem test_witness_LineDriveByState :
    (atState 0 0 true 0).st = 0 ∧ (atState 1 0 true 0).st = 1 ∧ (atState 2 0 true 0).st = 2 ∧
    (3 ≤ (atState 3 0 true 0).st.toNat ∧ (atState 3 0 true 0).st.toNat ≤ 9) ∧
    (3 ≤ (atState 9 0 true 0).st.toNat ∧ (atState 9 0 true 0).st.toNat ≤ 9) := by decide
theorem test_witness_TempTenthsIsSignedValue :
    ({ atState 0 0 true 0 with tsign := true } : State).tsign = true ∧
    ({ atState 0 0 true 0 with tsign := true } : State).tmag = 0 := by decide
theorem test_witness_CallerReadsDecodeOutcome :
    [CallOutcome.ok, .timeout, .checksum, .none].all
      (fun c => ({ atState 0 0 true 0 with outcome := c } : State).outcome == c) = true := by decide
theorem test_witness_failing_steps :
    (timesOut (atState 6 0 false 101) = true ∧ (atState 6 0 false 101).inp.rst = false ∧
      ∃ t, step (atState 6 0 false 101) = .next t) ∧
    (checksumFails (validating 0x028C0111A1) = true ∧ (validating 0x028C0111A1).inp.rst = false ∧
      ∃ t, step (validating 0x028C0111A1) = .next t) :=
  ⟨⟨by decide, rfl, _, rfl⟩, ⟨by decide, rfl, _, rfl⟩⟩
theorem test_witness_SamplingTimeoutExposesNothing :
    let s : State := { atState 7 0 true 101 with bitcnt := 39, frame := 0x7FFFFFFFFF }
    Inv s ∧ s.st = 0b0111 ∧ s.inp.rst = false ∧ timesOut s = true := by decide
theorem test_witness_HandshakeTimeoutLeavesNothing_first :
    Inv (atState 3 0 true 101) ∧ 3 ≤ (atState 3 0 true 101).st.toNat ∧ (atState 3 0 true 101).st.toNat ≤ 5 ∧
    (atState 3 0 true 101).inp.rst = false ∧ timesOut (atState 3 0 true 101) = true := by decide
theorem test_witness_HandshakeTimeoutLeavesNothing_last :
    Inv (atState 5 0 true 101) ∧ 3 ≤ (atState 5 0 true 101).st.toNat ∧ (atState 5 0 true 101).st.toNat ≤ 5 ∧
    (atState 5 0 true 101).inp.rst = false ∧ timesOut (atState 5 0 true 101) = true := by decide
theorem test_witness_ChecksumFailureExposesNothing :
    Inv (validating 0x028C0111A1) ∧ (validating 0x028C0111A1).inp.rst = false ∧
    checksumFails (validating 0x028C0111A1) = true := by decide
theorem test_witness_ResultPortsValidity_busy :
    Inv (atState 1 0 true 0) ∧ (outputs (atState 1 0 true 0)).busy = true := by decide
theorem test_witness_ResultPortsValidity_timeout :
    let s : State := { atState 0 0 true 0 with outcome := .timeout }
    Inv s ∧ (outputs s).outcome = 0b10 := by decide
theorem test_witness_ResultPortsValidity_checksum :
    let s : State := { atState 0 0 true 0 with outcome := .checksum, bitcnt := 40, frame := 1 }
    Inv s ∧ (outputs s).outcome = 0b11 := by decide
theorem test_witness_ResultPortsValidity_reading :
    let s : State :=
      { atState 0 0 true 0 with outcome := .ok, bitcnt := 40, frame := 0xFFFF80007E, hum := 65535, tsign := true }
    Inv s ∧ (outputs s).humTenths ≠ 0 ∧ (outputs s).tempSign = true := by decide
theorem test_witness_ResultPortsValidity_temperature :
    let s : State := { atState 0 0 true 0 with
      outcome := .ok, bitcnt := 40, frame := 0x0000FFFFFE, tsign := true, tmag := 32767 }
    Inv s ∧ (outputs s).tempMag ≠ 0 ∧ (outputs s).tempTenths ≠ 0 := by decide

/-! ### Witnesses: whole-machine rules -/

theorem test_witness_DoneMarksExactlyTheFinish :
    (atState 9 0 true 0).st = 0b1001 ∧ (atState 9 0 true 0).inp.rst = false ∧
    ∃ t, step (atState 9 0 true 0) = .next t := ⟨rfl, rfl, _, rfl⟩
theorem test_witness_RowsLeaveOtherRegisters :
    (∃ t, exec .idle (atState 0 0 true 0) = .next t) ∧ (∃ t, exec .validate (validating 0) = .next t) ∧
    answers (exec .hsWaitLow1 (atState 3 0 true 101))
      (fun t => t.outcome != (atState 3 0 true 101).outcome) = true :=
  ⟨⟨_, rfl⟩, ⟨_, rfl⟩, by decide⟩

theorem test_witness_ResultsWrittenTwice :
    (atState 9 0 true 0).inp.rst = false ∧ ∃ t, step (atState 9 0 true 0) = .next t := ⟨rfl, _, rfl⟩
theorem test_witness_StateMovesAlongEdges :
    (Inv (atState 3 0 false 9) ∧ ∃ t, step (atState 3 0 false 9) = .next t) ∧
    (Inv { atState 3 0 false 9 with inp := { sample true 0 with rst := true } } ∧
      ∃ t, step { atState 3 0 false 9 with inp := { sample true 0 with rst := true } } = .next t) :=
  ⟨⟨by decide, _, rfl⟩, ⟨by decide, _, rfl⟩⟩
theorem test_witness_TransitionsMarkTheInstant :
    (atState 6 2000 true 2050).inp.rst = false ∧
    answers (step (atState 6 2000 true 2050))
      (fun t => t.st != (atState 6 2000 true 2050).st && decide (1 ≤ t.st.toNat) && decide (t.st.toNat ≤ 7)) = true := by
  decide
theorem test_witness_SamplingEndsInThreeWays :
    let s : State := { atState 7 1000 false 1028 with bitcnt := 39, frame := 1 }
    Inv s ∧ s.st = 0b0111 ∧ ∃ t, step s = .next t := ⟨by decide, rfl, _, rfl⟩
theorem test_witness_inputs_ignored :
    (atState 2 0 true 0).st.toNat < 3 ∧ 7 < (atState 8 0 true 0).st.toNat ∧ 8 ≤ (atState 8 0 true 0).st.toNat ∧
    ((atState 0 0 true 0).st = 0b0000 ∧ (atState 0 0 true 0).inp.req = false) ∧
    ({ atState 5 0 true 0 with inp := { sample true 0 with rst := true } } : State).inp.rst = true := by decide
theorem test_witness_StepKeepsInv :
    (Inv (validating 0x028C0111A0) ∧ ∃ t, step (validating 0x028C0111A0) = .next t) ∧
    (Inv { atState 9 0 true 0 with bitcnt := 40, frame := 0x028C0111A0 } ∧
      ∃ t, step { atState 9 0 true 0 with bitcnt := 40, frame := 0x028C0111A0 } = .next t) :=
  ⟨⟨by decide, _, rfl⟩, ⟨by decide, _, rfl⟩⟩

/-! ### Witnesses: runs -/

theorem test_witness_ResultHeldWhileIdle :
    let s : State := { atState 0 0 true 0 with outcome := .ok, hum := 652, done := true }
    s.st = 0b0000 ∧ s.inp :: s.pending = [sample true 0, sample true 0] ++ [] ∧
    ∀ x ∈ [sample true 0, sample true 0], x.rst = false ∧ x.req = false := by decide
theorem test_witness_StoppedClockHangs :
    (awaitedLevel (atState 3 0 true 100).st = some false ∧
      (atState 3 0 true 100).inp :: (atState 3 0 true 100).pending = [sample true 100, sample true 100] ++ [] ∧
      (∀ x ∈ [sample true 100, sample true 100], x.rst = false ∧ x.now = 100) ∧
      (∀ x ∈ [sample true 100, sample true 100], x.line ≠ false) ∧
      ((100 : U32) - (atState 3 0 true 100).tMark).toNat ≤ 100) ∧
    ((atState 1 0 true 17999).st = 0b0001 ∧ ((17999 : U32) - (atState 1 0 true 17999).tMark).toNat < 18000 ∧
      (atState 1 0 true 17999).inp :: (atState 1 0 true 17999).pending = [sample true 17999, sample true 17999] ++ [] ∧
      ∀ x ∈ [sample true 17999, sample true 17999], x.rst = false ∧ x.now = 17999) ∧
    ((atState 2 0 true 29).st = 0b0010 ∧ ((29 : U32) - (atState 2 0 true 29).tMark).toNat < 30 ∧
      (atState 2 0 true 29).inp :: (atState 2 0 true 29).pending = [sample true 29, sample true 29] ++ [] ∧
      ∀ x ∈ [sample true 29, sample true 29], x.rst = false ∧ x.now = 29) := by decide

/-- A DECODE at instant 0 with the given samples pending. -/
def calling (pending : List Inputs) : State :=
  { State.reset with inp := { rst := false, req := true, line := true, now := 0 }, pending := pending }

/-- The hypotheses of the statements about a call at one step per microsecond, for every length and a silent line. -/
theorem test_witness_unit_calls (n : Nat) :
    let levels := List.replicate n (true, false)
    let s := calling (unitSamples 0 levels)
    s.st = 0b0000 ∧ s.inp.rst = false ∧ s.inp.req = true ∧ s.pending = unitSamples s.inp.now levels ∧
    levels.length = n ∧ ∀ l ∈ levels, l.1 = true :=
  ⟨rfl, rfl, rfl, rfl, List.length_replicate, fun l hl => by rw [List.eq_of_mem_replicate hl]⟩
theorem test_witness_CallEndsWhenClockAdvances :
    let ts := List.range' 1 26416
    let s := calling (ts.map fun t => sample true (BitVec.ofNat 32 t))
    s.st = 0b0000 ∧ s.inp.rst = false ∧ s.inp.req = true ∧ s.inp.now = BitVec.ofNat 32 0 ∧ SampledAt ts s.pending ∧
    clockNeverDecreases (0 :: ts) = true ∧ samplingPremise (0 :: ts) = true ∧ 0 + 26416 ∈ ts := by
  refine ⟨rfl, rfl, rfl, rfl, ⟨?_, ?_⟩, (premises_range' 0 26416).1, (premises_range' 0 26416).2, ?_⟩
  · simp [calling, sample, Function.comp_def]
  · simp [calling, sample]
  · simp [List.mem_range'_1]

/-- Pulses for the bits, each rise at the bound of its wait and each width at the bound of its class (40 or 41 us). -/
def testPulses : U32 → List Bool → List Pulse
  | _, [] => []
  | mark, b :: bs =>
    let rise := mark + 100
    let fall := rise + (if b then 41 else 40)
    { rise := { polls := [sample false (mark + 100)], last := sample true rise },
      fall := { polls := [sample true rise], last := sample false fall } } :: testPulses fall bs

/-- An exchange after a DECODE at instant 0 that carries the frame `f`. -/
def testExchange (f : FrameWord) : Exchange where
  startLow := { polls := [sample false 17999], last := sample false 18000 }
  startHigh := { polls := [sample true 18029], last := sample true 18030 }
  ackLow := { polls := [sample true 18130], last := sample false 18131 }
  ackHigh := { polls := [], last := sample true 18211 }
  ready := { polls := [], last := sample false 18291 }
  pulses := testPulses 18291 ((List.range 40).map fun i => f.getLsbD (39 - i))

/-- A DECODE at instant 0 before the exchange that carries `f`, and two samples after it. -/
def exchanging (f : FrameWord) : State :=
  calling ((testExchange f).samples ++ sample true 30000 :: sample true 30001 :: [])

theorem test_witness_ExchangeDeliversItsFrame_ok :
    (exchanging 0x028C0111A0).st = 0b0000 ∧ (exchanging 0x028C0111A0).inp.rst = false ∧
    (exchanging 0x028C0111A0).inp.req = true ∧
    (testExchange 0x028C0111A0).completes (exchanging 0x028C0111A0).inp.now = true ∧
    (sample true 30000).rst = false ∧ (sample true 30001).rst = false ∧
    (exchanging 0x028C0111A0).pending =
      (testExchange 0x028C0111A0).samples ++ sample true 30000 :: sample true 30001 :: [] ∧
    (testExchange 0x028C0111A0).frameNat = 0x028C0111A0 ∧
    (byteNat 0x028C0111A0 0 + byteNat 0x028C0111A0 1 + byteNat 0x028C0111A0 2 + byteNat 0x028C0111A0 3) % 256
      = byteNat 0x028C0111A0 4 :=
  ⟨rfl, rfl, rfl, by decide, rfl, rfl, rfl, by decide, by decide⟩
theorem test_witness_ExchangeDeliversItsFrame_checksum :
    (exchanging 0x028C0111A1).st = 0b0000 ∧ (exchanging 0x028C0111A1).inp.rst = false ∧
    (exchanging 0x028C0111A1).inp.req = true ∧
    (testExchange 0x028C0111A1).completes (exchanging 0x028C0111A1).inp.now = true ∧
    (sample true 30000).rst = false ∧ (sample true 30001).rst = false ∧
    (exchanging 0x028C0111A1).pending =
      (testExchange 0x028C0111A1).samples ++ sample true 30000 :: sample true 30001 :: [] ∧
    (testExchange 0x028C0111A1).frameNat = 0x028C0111A1 ∧
    (byteNat 0x028C0111A1 0 + byteNat 0x028C0111A1 1 + byteNat 0x028C0111A1 2 + byteNat 0x028C0111A1 3) % 256
      ≠ byteNat 0x028C0111A1 4 :=
  ⟨rfl, rfl, rfl, by decide, rfl, rfl, rfl, by decide, by decide⟩

end Sys2Proof.Tests
end

/-! SUPPORT. What the row of each state can do, case by case: the shape that the statements about `done` and about the
edges of the FSM share. -/

namespace Sys2Proof

/-- The hold time of R122 and R123, in microseconds. -/
def FsmState.holdTime : FsmState → Option Nat
  | .startLow => some 18000
  | .startHigh => some 30
  | _ => none

/-- The state that a hold, or a wait other than BIT_WAIT_FALL, goes on to (R122 to R126, R150). -/
def FsmState.succ : FsmState → FsmState
  | .startLow => .startHigh
  | .startHigh => .hsWaitLow1
  | .hsWaitLow1 => .hsWaitHigh
  | .hsWaitHigh => .hsWaitLow2
  | .hsWaitLow2 => .bitWaitRise
  | .bitWaitRise => .bitWaitFall
  | n => n

/-- Only START_LOW and START_HIGH hold (R122, R123). -/
theorem FsmState.eq_of_holdTime {n : FsmState} {T : Nat} (h : n.holdTime = some T) : n = .startLow ∨ n = .startHigh := by
  cases n <;> simp [FsmState.holdTime] at h ⊢

end Sys2Proof

namespace Sys2Proof.Safety

open Sys2Proof Sys2Proof.Machine

/-- The ways the row of state `n` turns the block `s` into `u`, each with its condition. -/
inductive RowMove (s : State) : FsmState → State → Prop
  /-- R102 -/
  | idleHold (hq : s.inp.req = false) : RowMove s .idle s.clearDone
  /-- R101 -/
  | startCall (hq : s.inp.req = true) : RowMove s .idle (s.clearDone.clearCall.enter .startLow)
  /-- R121, before its time -/
  | holdPoll {n : FsmState} {T : Nat} (hn : n.holdTime = some T) (hw : waited s < T) : RowMove s n s.clearDone
  /-- R121, after its time -/
  | holdEnd {n : FsmState} {T : Nat} (hn : n.holdTime = some T) (hw : T ≤ waited s) :
      RowMove s n (s.clearDone.enter n.succ)
  /-- R120 and R151, neither matched nor timed out -/
  | waitPoll {n : FsmState} {L : Bool} (hn : awaitedLevel n.code = some L) (hl : s.inp.line ≠ L)
      (hw : waited s ≤ 100) : RowMove s n s.clearDone
  /-- R120 and R151, timed out -/
  | waitTimeout {n : FsmState} {L : Bool} (hn : awaitedLevel n.code = some L) (hl : s.inp.line ≠ L)
      (hw : 100 < waited s) : RowMove s n (s.clearDone.finish .timeout)
  /-- R120, matched -/
  | waitMatch {n : FsmState} (hn : awaitedLevel n.code = some s.inp.line) (hf : n ≠ .bitWaitFall) :
      RowMove s n (s.clearDone.enter n.succ)
  /-- R151, matched -/
  | bitEnd (hl : s.inp.line = false) : RowMove s .bitWaitFall s.clearDone.endPulse
  /-- R181 on a match -/
  | validated (hc : checksumOk s.frame = true) : RowMove s .validate (s.clearDone.goto .convert)
  /-- R181 on a mismatch -/
  | rejected (hc : checksumOk s.frame = false) : RowMove s .validate (s.clearDone.finish .checksum)
  /-- R182 -/
  | published : RowMove s .convert (s.clearDone.publish.finish .ok)

/-- The meaning of a hold state's row is a move of that state. -/
theorem RowMove.of_hold {s : State} {n : FsmState} {T : Nat} (hn : n.holdTime = some T) :
    RowMove s n (s.clearDone.hold T n.succ) := by
  obtain ⟨hw, e⟩ | ⟨hw, e⟩ := s.clearDone.hold_cases T n.succ <;> rw [e]
  · exact .holdEnd hn hw
  · exact .holdPoll hn hw

/-- The meaning of a wait state's row is a move of that state, when what it does on a match is. -/
theorem RowMove.of_awaitLevel {s : State} {n : FsmState} {L : Bool} {f : State → State}
    (hn : awaitedLevel n.code = some L) (hf : s.inp.line = L → RowMove s n (f s.clearDone)) :
    RowMove s n (s.clearDone.awaitLevel L 100 f) := by
  obtain ⟨hl, e⟩ | ⟨hl, hw, e⟩ | ⟨hl, hw, e⟩ := s.clearDone.awaitLevel_cases L 100 f <;> rw [e]
  · exact hf hl
  · exact .waitTimeout hn hl hw
  · exact .waitPoll hn hl hw

/-- The meaning of a row other than BIT_WAIT_FALL's that waits is a move of its state. -/
theorem RowMove.of_wait {s : State} {n : FsmState} {L : Bool} (hn : awaitedLevel n.code = some L)
    (hf : n ≠ .bitWaitFall) : RowMove s n (s.clearDone.wait L 100 n.succ) :=
  .of_awaitLevel hn fun hl => .waitMatch (hl ▸ hn) hf

/-- Every row's meaning is one of the moves of its state. -/
theorem rowMove_of_exec {s u : State} {n : FsmState} (h : exec (n.row s.inp.req) s = .next u) : RowMove s n u := by
  cases n
  case idle =>
    cases hq : s.inp.req <;> rw [hq] at h <;> cases h
    · exact .idleHold hq
    · exact .startCall hq
  case validate =>
    cases h
    cases hc : checksumOk s.frame
    · exact .rejected hc
    · exact .validated hc
  all_goals cases h
  case convert => exact .published
  case startLow | startHigh => exact .of_hold rfl
  case bitWaitFall => exact .of_awaitLevel rfl .bitEnd
  case hsWaitLow1 | hsWaitHigh | hsWaitLow2 | bitWaitRise => exact .of_wait rfl (by decide)

/-- Every step is a reset or a move of the state's row, and then the environment presents the next sample. -/
theorem step_moves {s t : State} (h : step s = .next t) :
    (s.inp.rst = true ∧ t = s.applyReset.presentNext) ∨
    (s.inp.rst = false ∧ ∃ n u, s.st = FsmState.code n ∧ RowMove s n u ∧ t = u.presentNext) := by
  obtain hr | ⟨hr, n, u, hn, hu, ht⟩ := step_cases h
  · exact .inl hr
  · exact .inr ⟨hr, n, u, hn, rowMove_of_exec hu, ht⟩

/-! ### The failure conditions, in the words of the rows -/

/-- Five states await a level (R124 to R126, R150, R151). -/
theorem eq_of_awaitedLevel {n : FsmState} {L : Bool} (h : awaitedLevel n.code = some L) :
    n = .hsWaitLow1 ∨ n = .hsWaitHigh ∨ n = .hsWaitLow2 ∨ n = .bitWaitRise ∨ n = .bitWaitFall := by
  cases n <;> simp [FsmState.code, awaitedLevel] at h ⊢

/-- VALIDATE and CONVERT await no level. -/
theorem ne_of_awaitedLevel {n : FsmState} {L : Bool} (h : awaitedLevel n.code = some L) :
    n ≠ .validate ∧ n ≠ .convert := by
  constructor <;> rintro rfl <;> cases h

/-- R200: a timeout is a wait whose level is not there more than 100 us after its start. -/
theorem timesOut_iff (s : State) :
    timesOut s = true ↔ ∃ L, awaitedLevel s.st = some L ∧ s.inp.line ≠ L ∧ 100 < waited s := by
  unfold timesOut
  cases awaitedLevel s.st <;> simp

/-- R23 on numbers. -/
theorem frameByte_toNat (f : FrameWord) (k : Nat) : (frameByte f k).toNat = byteNat f.toNat k := by
  simp [frameByte, byteNat, Nat.shiftRight_eq_div_pow]

/-- R180 on numbers: ten bits hold the sum of four bytes. -/
theorem csum_toNat (f : FrameWord) :
    (csum f).toNat = (byteNat f.toNat 0 + byteNat f.toNat 1 + byteNat f.toNat 2 + byteNat f.toNat 3) % 256 := by
  simp only [csum, BitVec.toNat_setWidth, BitVec.toNat_add, frameByte_toNat]
  omega

/-- R180 on numbers: the frame validates when the sum of bytes 0 to 3 is byte 4. -/
theorem checksumOk_iff (f : FrameWord) :
    checksumOk f = true ↔
      (byteNat f.toNat 0 + byteNat f.toNat 1 + byteNat f.toNat 2 + byteNat f.toNat 3) % 256 = byteNat f.toNat 4 := by
  rw [checksumOk, beq_iff_eq, ← BitVec.toNat_inj, csum_toNat, frameByte_toNat]

/-- The checksum fails in VALIDATE on a frame that does not validate. -/
theorem checksumFails_iff (s : State) :
    checksumFails s = true ↔ s.st = FsmState.validate.code ∧ checksumOk s.frame = false := by
  rw [← Bool.not_eq_true, checksumOk_iff]
  simp [checksumFails, byteNat, FsmState.code]

/-- R26: the move that a row makes finishes the call exactly when a timeout, a bad checksum or CONVERT says so. -/
theorem RowMove.done_iff {s u : State} {n : FsmState} (hn : s.st = n.code) (h : RowMove s n u) :
    u.done = true ↔ timesOut s = true ∨ checksumFails s = true ∨ s.st = FsmState.convert.code := by
  rw [timesOut_iff, checksumFails_iff, hn, FsmState.code_inj, FsmState.code_inj]
  cases h with
  | idleHold | startCall => simp [FsmState.code, awaitedLevel]
  | holdPoll hT | holdEnd hT => obtain rfl | rfl := FsmState.eq_of_holdTime hT <;> simp [FsmState.code, awaitedLevel]
  | waitPoll hL hl hw =>
    obtain ⟨hv, hc⟩ := ne_of_awaitedLevel hL
    simp [hL, hv, hc, hw]
  | waitTimeout hL hl hw => exact iff_of_true rfl (.inl ⟨_, hL, hl, hw⟩)
  | waitMatch hL =>
    obtain ⟨hv, hc⟩ := ne_of_awaitedLevel hL
    simp [hL, hv, hc]
  | bitEnd hl => simp [State.endPulse_eq, hl, FsmState.code, awaitedLevel]
  | validated hc => simp [hc, FsmState.code, awaitedLevel]
  | rejected hc => simp [hc]
  | published => simp

/-- R151, R155: the end of a pulse goes on to the next bit, or to VALIDATE with the 40th. -/
theorem endPulse_edge {s : State} (h : s.bitcnt.toNat < 40) :
    (s.endPulse.st = FsmState.bitWaitRise.code ∧ s.endPulse.bitcnt.toNat < 40) ∨
    (s.endPulse.st = FsmState.validate.code ∧ s.endPulse.bitcnt = 40) := by
  have hb : (s.bitcnt + 1).toNat = s.bitcnt.toNat + 1 := by bv_omega
  rw [State.endPulse_eq]
  by_cases h40 : (s.bitcnt + 1).toNat = 40
  · rw [if_pos h40]
    exact .inr ⟨rfl, BitVec.eq_of_toNat_eq h40⟩
  · rw [if_neg h40]
    exact .inl ⟨rfl, show (s.bitcnt + 1).toNat < 40 by omega⟩

/-- R34: the edge of the FSM that a move takes, under its condition. -/
theorem RowMove.edge {s u : State} {n : FsmState} (hn : s.st = n.code)
    (hb : n = .bitWaitFall → s.bitcnt.toNat < 40) (h : RowMove s n u) :
    u.st = s.st ∨
    (s.st = 0 ∧ s.inp.req = true ∧ u.st = 1) ∨ (s.st = 1 ∧ u.st = 2) ∨ (s.st = 2 ∧ u.st = 3) ∨
    (s.st = 3 ∧ u.st = 4) ∨ (s.st = 4 ∧ u.st = 5) ∨ (s.st = 5 ∧ u.st = 6) ∨ (s.st = 6 ∧ u.st = 7) ∨
    (s.st = 7 ∧ u.st = 6 ∧ u.bitcnt.toNat < 40) ∨ (s.st = 7 ∧ u.st = 8 ∧ u.bitcnt = 40) ∨ (s.st = 8 ∧ u.st = 9) ∨
    (3 ≤ s.st.toNat ∧ u.st = 0 ∧ u.done = true) := by
  rw [hn]
  cases h with
  | idleHold | holdPoll | waitPoll => exact .inl hn
  | startCall hq => simp [FsmState.code, hq]
  | holdEnd hT => obtain rfl | rfl := FsmState.eq_of_holdTime hT <;> simp [FsmState.code, FsmState.succ]
  | waitTimeout hL =>
    obtain rfl | rfl | rfl | rfl | rfl := eq_of_awaitedLevel hL <;> simp [FsmState.code]
  | waitMatch hL hf =>
    obtain rfl | rfl | rfl | rfl | rfl := eq_of_awaitedLevel hL
    case inr.inr.inr.inr => exact absurd rfl hf
    all_goals simp [FsmState.code, FsmState.succ]
  | bitEnd =>
    obtain ⟨he, hc⟩ | ⟨he, hc⟩ := endPulse_edge (s := s.clearDone) (hb rfl) <;> simp [FsmState.code, he, hc]
  | validated | rejected | published => simp [FsmState.code]

/-- A move ends in one of the ten states (R71). -/
theorem RowMove.code_le {s u : State} {n : FsmState} (hn : s.st = n.code) (h : RowMove s n u) : u.st.toNat ≤ 9 := by
  have code_le : ∀ m : FsmState, m.code.toNat ≤ 9 := fun m => by cases m <;> decide
  cases h with
  | idleHold | holdPoll | waitPoll => exact hn ▸ code_le _
  | bitEnd => rw [State.endPulse_eq]; exact code_le _
  | _ => exact code_le _

/-! ### DECODE forgets the calls before it -/

/-- R39: what DECODE leaves of the block is a function of the samples alone. -/
theorem startCall_congr {s₁ s₂ : State} (hi : s₁.inp = s₂.inp) (hp : s₁.pending = s₂.pending) (ht : s₁.tick = s₂.tick) :
    s₁.clearDone.clearCall.enter .startLow = s₂.clearDone.clearCall.enter .startLow := by
  cases s₁; cases s₂
  cases hi; cases hp; cases ht
  rfl

/-- R101: a DECODE step in IDLE. -/
theorem step_startCall {s : State} (hs : s.st = FsmState.idle.code) (hr : s.inp.rst = false) (hq : s.inp.req = true) :
    step s = .next (s.clearDone.clearCall.enter .startLow).presentNext := by
  rw [step_row hr hs, hq]
  rfl

/-- Runs whose first steps go to one state agree from there on. -/
theorem runFor_succ_congr {s₁ s₂ t : State} (h₁ : step s₁ = .next t) (h₂ : step s₂ = .next t) (n : Nat) :
    runFor (n + 1) s₁ = runFor (n + 1) s₂ :=
  (runFor_succ h₁).trans (runFor_succ h₂).symm

/-! ### The signed temperature -/

/-- R30: the magnitude in sixteen bits is not negative. -/
theorem toInt_tmag_setWidth (m : BitVec 15) : (m.setWidth 16).toInt = (m.toNat : Int) := by
  rw [BitVec.toInt_setWidth, Int.bmod_eq_of_le] <;> omega

/-- R30: `temp_tenths` as a number. -/
theorem tempTenths_toInt (s : State) :
    s.tempTenths.toInt = if s.tsign = true then -(s.tmag.toNat : Int) else (s.tmag.toNat : Int) := by
  unfold State.tempTenths
  cases s.tsign
  · simpa using toInt_tmag_setWidth s.tmag
  · have := s.tmag.isLt
    rw [if_pos rfl, if_pos rfl, BitVec.toInt_sub, toInt_tmag_setWidth, BitVec.ofNat_eq_ofNat, BitVec.toInt_zero,
      Int.bmod_eq_of_le] <;> omega

/-! ### The line drive -/

theorem outputs_lineOe (s : State) : (outputs s).lineOe = (s.st == 1 || s.st == 2) := rfl

theorem outputs_lineOut (s : State) : (outputs s).lineOut = (s.st != 1) := rfl

/-- R29: outside START_LOW and START_HIGH the line is an undriven input. -/
theorem line_input_of_ne {s : State} (h₁ : s.st ≠ 1) (h₂ : s.st ≠ 2) :
    (outputs s).lineOe = false ∧ (outputs s).lineOut = true := by
  rw [outputs_lineOe, outputs_lineOut, Bool.or_eq_false_iff, beq_eq_false_iff_ne, beq_eq_false_iff_ne, bne_iff_ne]
  exact ⟨⟨h₁, h₂⟩, h₁⟩

/-! ### The statements -/

/-- Settles O14: the DECODE step of both blocks is `step_startCall`, and its result depends on the samples alone. -/
theorem noStateCarriedBetweenCalls : Obligations.NoStateCarriedBetweenCalls := by
  intro s₁ s₂ h₁ h₂ hi hp ht hr hq n
  have e₁ := step_startCall h₁ hr hq
  have e₂ := step_startCall h₂ (hi ▸ hr) (hi ▸ hq)
  rw [← startCall_congr hi hp ht] at e₂
  exact runFor_succ_congr e₁ e₂ n

/-- Settles O31: the magnitude has fifteen bits, so its negation fits sixteen. -/
theorem tempTenthsIsSignedValue : Obligations.TempTenthsIsSignedValue := by
  intro s
  have hv : (outputs s).tempTenths.toInt = _ := tempTenths_toInt s
  have hm := s.tmag.isLt
  refine ⟨hv, ?_, ?_, fun hs h0 => ?_⟩
  · rw [hv]; split <;> omega
  · rw [hv]; split <;> omega
  · exact BitVec.eq_of_toInt_eq (by simp [hv, hs, h0])

/-- Settles O36: a reset clears `done`, and a row sets it exactly by finishing (`RowMove.done_iff`). -/
theorem doneMarksExactlyTheFinish : Obligations.DoneMarksExactlyTheFinish := by
  intro s t h
  obtain ⟨hr, rfl⟩ | ⟨hr, n, u, hn, hm, rfl⟩ := step_moves h
  · simp [hr]
  · rw [State.presentNext_done, hm.done_iff hn, and_iff_right hr]
    rfl

/-- Settles O43: a row moves along an edge (`RowMove.edge`), where the invariant bounds `bitcnt` in BIT_WAIT_FALL. -/
theorem stateMovesAlongEdges : Obligations.StateMovesAlongEdges := by
  intro s t hinv h
  obtain ⟨-, -, -, -, -, hframe, -, -⟩ := hinv
  obtain ⟨hr, rfl⟩ | ⟨hr, n, u, hn, hm, rfl⟩ := step_moves h
  · simp [hr]
  · have hb : n = .bitWaitFall → s.bitcnt.toNat < 40 := fun e => (hframe (.inr (e ▸ hn))).1
    simp only [State.presentNext_st, State.presentNext_bitcnt, State.presentNext_done, hr]
    exact ⟨hm.code_le hn, nofun, fun _ => hm.edge hn hb⟩

/-- Settles O10: the reset state's fields, read off. -/
theorem resetStateValues : Obligations.ResetStateValues := by
  refine ⟨rfl, rfl, rfl, rfl, rfl, rfl, rfl, rfl, rfl, ?_, ?_, ?_, ?_⟩ <;> rfl

/-- Settles O30: START_LOW and START_HIGH drive the line, and every other of the ten codes differs from theirs. -/
theorem lineDriveByState : Obligations.LineDriveByState := by
  intro s
  refine ⟨fun h => line_input_of_ne (by simp [h]) (by simp [h]), fun h => ?_, fun h => ?_, fun h _ => ?_⟩
  · simp [outputs_lineOe, outputs_lineOut, h]
  · simp [outputs_lineOe, outputs_lineOut, h]
  · exact line_input_of_ne (fun h₁ => by simp [h₁] at h) (fun h₂ => by simp [h₂] at h)

end Sys2Proof.Safety

namespace Sys2Proof.Machine

open Sys2Proof

/-! ### Where shifted bits lie in the frame (R54, R23) -/

theorem getLsbD_shiftIn_zero (f : FrameWord) (b : Bool) : (shiftIn f b).getLsbD 0 = b := by
  simp [shiftIn]

theorem getLsbD_shiftIn_succ (f : FrameWord) (b : Bool) {j : Nat} (hj : j + 1 < 40) :
    (shiftIn f b).getLsbD (j + 1) = f.getLsbD j := by
  simp [shiftIn, hj, BitVec.getLsbD_eq_getElem (Nat.lt_of_succ_lt hj)]

/-- Shifts move the bits that were there up, by as many places as bits come in. -/
theorem getLsbD_foldl_shiftIn_length_add (bits : List Bool) (f : FrameWord) {j : Nat} (h : bits.length + j < 40) :
    (bits.foldl shiftIn f).getLsbD (bits.length + j) = f.getLsbD j := by
  induction bits generalizing f j with
  | nil => simp
  | cons b bs ih =>
    simp only [List.length_cons] at h
    rw [List.foldl_cons, List.length_cons, Nat.add_right_comm, Nat.add_assoc, ih _ (by omega),
      getLsbD_shiftIn_succ _ _ (by omega)]

/-- R54: the last bit to arrive is bit 0 of the frame, and each earlier one lies a place higher. -/
theorem getLsbD_foldl_shiftIn_arrival (bits : List Bool) (f : FrameWord) (hlen : bits.length ≤ 40) (i : Nat)
    (hi : i < bits.length) : (bits.foldl shiftIn f).getLsbD (bits.length - 1 - i) = bits[i] := by
  induction bits generalizing f i with
  | nil => cases hi
  | cons b bs ih =>
    simp only [List.length_cons] at hlen hi
    cases i with
    | zero =>
      have first := getLsbD_foldl_shiftIn_length_add bs (shiftIn f b) (j := 0) (by omega)
      exact first.trans (getLsbD_shiftIn_zero f b)
    | succ i =>
      have later := ih (shiftIn f b) (by omega) i (by omega)
      have place : bs.length + 1 - 1 - (i + 1) = bs.length - 1 - i := by omega
      rwa [List.foldl_cons, List.length_cons, place, List.getElem_cons_succ]

/-- R23: bit `7 - i mod 8` of byte `i / 8` is bit `39 - i` of the frame. -/
theorem getLsbD_frameByte (f : FrameWord) {i : Nat} (hi : i < 40) :
    (frameByte f (i / 8)).getLsbD (7 - i % 8) = f.getLsbD (39 - i) := by
  have place : 32 - 8 * (i / 8) + (7 - i % 8) = 39 - i := by omega
  have inByte : 7 - i % 8 < 8 := by omega
  simp [frameByte, place, inByte]

end Sys2Proof.Machine

namespace Sys2Proof.Safety

open Sys2Proof Sys2Proof.Machine

/-- Settles O25: the frame place is `getLsbD_foldl_shiftIn_arrival` at length 40, and the byte place is the same bit
(`getLsbD_frameByte`). -/
theorem fortyBitsFillTheFrame : Obligations.FortyBitsFillTheFrame := by
  intro frame bits hlen i hi
  have framePlace := getLsbD_foldl_shiftIn_arrival bits frame hlen.le i hi
  rw [hlen] at framePlace
  exact ⟨framePlace, (getLsbD_frameByte _ (hlen ▸ hi)).trans framePlace⟩

end Sys2Proof.Safety

/-! SUPPORT. The decoder by its three cases, and the state codes that rows, steps and runs leave. -/

namespace Sys2Proof

/-- Every code is a state's or reserved (R70, R71). -/
theorem FsmState.eq_code_or_reserved (c : StCode) : (∃ n, c = FsmState.code n) ∨ 10 ≤ c.toNat := by
  cases hc : FsmState.ofCode c with
  | none => exact .inr (FsmState.ofCode_eq_none.1 hc)
  | some n => exact .inl ⟨n, FsmState.ofCode_eq_some.1 hc⟩

theorem FsmState.code_toNat_le (n : FsmState) : n.code.toNat ≤ 9 := by
  cases n <;> decide

/-- R101: the command is a row of IDLE alone. -/
theorem FsmState.row_eq_decode {n : FsmState} {q : Bool} : n.row q = .decode ↔ n = .idle ∧ q = true := by
  cases n <;> cases q <;> decide

/-- R73, R103: outside IDLE the row does not depend on `req`. -/
theorem FsmState.row_eq_of_ne_idle {n : FsmState} (h : n ≠ .idle) (q q' : Bool) : n.row q = n.row q' := by
  cases n
  case idle => exact absurd rfl h
  all_goals rfl

/-- R100: a word asserts reset, holds a reserved code, or decodes to the row of its state. -/
theorem decodeWord_cases (r q : Bool) (c : StCode) :
    (r = true ∧ decodeWord (fetchWordOf r q c) = .error .resetAsserted) ∨
    (r = false ∧ 10 ≤ c.toNat ∧ decodeWord (fetchWordOf r q c) = .error (.reservedState c)) ∨
    (r = false ∧ ∃ n, c = FsmState.code n ∧ decodeWord (fetchWordOf r q c) = .ok (n.row q)) := by
  cases r with
  | true => exact .inl ⟨rfl, decodeWord_reset q c⟩
  | false =>
    obtain ⟨n, rfl⟩ | hc := FsmState.eq_code_or_reserved c
    · exact .inr (.inr ⟨rfl, n, rfl, decodeWord_code q n⟩)
    · exact .inr (.inl ⟨rfl, hc, decodeWord_reserved q hc⟩)

/-- R84: the words a row of the table accepts are the words that decode to it. -/
theorem rowAccepts_iff_decodeWord (i : Instr) (w : FetchWord) : rowAccepts i w = true ↔ decodeWord w = .ok i := by
  revert w
  cases i <;> decide

/-- Settles O1: the three cases of the decoder, where a row accepts the word exactly when the word decodes to it. -/
theorem decoderMatchesOpcodeTable : Obligations.DecoderMatchesOpcodeTable := by
  intro w
  have hw := decodeWord_cases (FetchWord.rstBit w) (FetchWord.reqBit w) (FetchWord.stBits w)
  rw [fetchWordOf_fields] at hw
  obtain ⟨hr, hd⟩ | ⟨hr, hc, hd⟩ | ⟨hr, n, hn, hd⟩ := hw
  · have notClear : w.getLsbD 5 ≠ false := ne_false_of_eq_true hr
    exact ⟨fun _ => hd, fun h => absurd h notClear, fun h => absurd h notClear⟩
  · have notSet : w.getLsbD 5 ≠ true := ne_true_of_eq_false hr
    exact ⟨fun h => absurd h notSet, fun _ _ => hd, fun _ hle => absurd (hc.trans hle) (by decide)⟩
  · have notSet : w.getLsbD 5 ≠ true := ne_true_of_eq_false hr
    have notReserved : ¬ 10 ≤ (FetchWord.stBits w).toNat := by
      have := n.code_toNat_le
      rw [hn]
      omega
    refine ⟨fun h => absurd h notSet, fun _ h => absurd h notReserved, fun _ _ => ⟨_, hd, ?_, fun j hj => ?_⟩⟩
    · exact (rowAccepts_iff_decodeWord _ w).2 hd
    · have same := ((rowAccepts_iff_decodeWord j w).1 hj).symm.trans hd
      cases same
      rfl

end Sys2Proof

namespace Sys2Proof.Safety

open Sys2Proof Sys2Proof.Machine

/-- Settles O4: of the decoder's three cases only a state's row can be DECODE, and it is for IDLE with `req` alone. -/
theorem requestIsCommandOnlyInIdle : Obligations.RequestIsCommandOnlyInIdle := by
  refine ⟨fun s => ?_, fun r q c hc => ?_⟩
  · have idle_iff (n : FsmState) : n.code = 0b0000 ↔ n = .idle := FsmState.code_inj (n := .idle)
    rw [State.fetchWord]
    obtain ⟨hr, hd⟩ | ⟨hr, hres, hd⟩ | ⟨hr, n, hn, hd⟩ := decodeWord_cases s.inp.rst s.inp.req s.st <;> rw [hd]
    · exact iff_of_false nofun fun ⟨hclear, _, _⟩ => nomatch hr.symm.trans hclear
    · refine iff_of_false nofun fun ⟨_, hidle, _⟩ => ?_
      rw [hidle] at hres
      exact absurd hres (by decide)
    · rw [Except.ok.injEq, FsmState.row_eq_decode, hn, idle_iff, and_iff_right hr]
  · cases r with
    | true => rw [decodeWord_reset, decodeWord_reset]
    | false =>
      obtain ⟨n, rfl⟩ | hres := FsmState.eq_code_or_reserved c
      · have notIdle : n ≠ .idle := by rintro rfl; exact hc rfl
        rw [decodeWord_code, decodeWord_code, FsmState.row_eq_of_ne_idle notIdle q false]
      · rw [decodeWord_reserved q hres, decodeWord_reserved false hres]

/-! ### The codes that rows, steps and runs leave -/

theorem hold_st_eq_or_legal (T : Nat) (n : FsmState) (s : State) : (s.hold T n).st = s.st ∨ CodeLegal (s.hold T n) := by
  obtain ⟨-, e⟩ | ⟨-, e⟩ := s.hold_cases T n <;> rw [e]
  · exact .inr n.code_toNat_le
  · exact .inl rfl

theorem awaitLevel_st_eq_or_legal (L : Bool) (T : Nat) {f : State → State} {s : State} (hf : CodeLegal (f s)) :
    (s.awaitLevel L T f).st = s.st ∨ CodeLegal (s.awaitLevel L T f) := by
  obtain ⟨-, e⟩ | ⟨-, -, e⟩ | ⟨-, -, e⟩ := s.awaitLevel_cases L T f <;> rw [e]
  · exact .inr hf
  · exact .inr (Nat.zero_le 9)
  · exact .inl rfl

/-- R71: a row keeps the state code or writes the code of one of the ten states. -/
theorem exec_st_eq_or_legal {i : Instr} {s t : State} (h : exec i s = .next t) : t.st = s.st ∨ CodeLegal t := by
  cases i <;> cases h
  case idle => exact .inl rfl
  case convert | decode => exact .inr (FsmState.code_toNat_le _)
  case validate => split <;> exact .inr (FsmState.code_toNat_le _)
  case startLow | startHigh => exact hold_st_eq_or_legal _ _ s.clearDone
  case hsWaitLow1 | hsWaitHigh | hsWaitLow2 | bitWaitRise | bitWaitFall =>
    exact awaitLevel_st_eq_or_legal _ _ (s := s.clearDone) (FsmState.code_toNat_le _)

/-- A step answers a next state, unless it is the fault of a reserved code without reset. -/
theorem step_next_or_reserved (s : State) :
    (∃ t, step s = .next t) ∨ (s.inp.rst = false ∧ 10 ≤ s.st.toNat ∧ step s = .fault (.reservedState s.st)) := by
  cases hr : s.inp.rst with
  | true => exact .inl ⟨_, step_reset hr⟩
  | false =>
    obtain ⟨n, hn⟩ | hres := FsmState.eq_code_or_reserved s.st
    · obtain ⟨u, hu⟩ := exec_next (n.row s.inp.req) s
      exact .inl ⟨u.presentNext, by rw [step_row hr hn, hu]; rfl⟩
    · exact .inr ⟨rfl, hres, step_reserved hr hres⟩

/-- R21: whatever state a step starts from, the state it answers holds one of the ten codes. -/
theorem step_codeLegal {s t : State} (h : step s = .next t) : CodeLegal t := by
  obtain ⟨-, rfl⟩ | ⟨-, n, u, hn, hm, rfl⟩ := step_moves h
  · simp [CodeLegal]
  · simpa [CodeLegal] using hm.code_le hn

/-- A run stops at a fault. -/
theorem runFor_succ_fault {n : Nat} {s : State} {r : Fault} (h : step s = .fault r) : runFor (n + 1) s = .fault r := by
  have h' : Sys2Proof.core.step s = .fault r := h
  simp only [runFor, Host.Core.run, h'] <;> rfl

/-- What holds of a state and is kept by every step holds at the end of every run from it. -/
theorem runFor_induction {P : State → Prop} (keeps : ∀ {s t : State}, P s → step s = .next t → P t) {n : Nat}
    {s t : State} (hs : P s) (h : runFor n s = .next t) : P t := by
  induction n generalizing s with
  | zero =>
    cases h
    exact hs
  | succ n ih =>
    obtain ⟨u, hu⟩ | ⟨-, -, hf⟩ := step_next_or_reserved s
    · rw [runFor_succ hu] at h
      exact ih (keeps hs hu) h
    · cases (runFor_succ_fault hf).symm.trans h

/-- Settles O7: a step that does not answer is a reserved code's (`step_next_or_reserved`); rows write only the ten codes
(`exec_st_eq_or_legal`), and a run starts in IDLE and goes on by steps, which leave one of them (`step_codeLegal`). -/
theorem reservedCodeIsTheOnlyStop : Obligations.ReservedCodeIsTheOnlyStop := by
  refine ⟨fun s => step_reserved, fun s r h => ?_, fun s r h => ?_, fun i s t h => ?_, fun inp pending tick n t h => ?_⟩
  · obtain ⟨t, ht⟩ | ⟨hr, hres, hf⟩ := step_next_or_reserved s
    · cases ht.symm.trans h
    · cases hf.symm.trans h
      exact ⟨hr, hres, rfl⟩
  · obtain ⟨t, ht⟩ | ⟨-, -, hf⟩ := step_next_or_reserved s
    · cases ht.symm.trans h
    · cases hf.symm.trans h
  · exact exec_st_eq_or_legal h
  · have launched : CodeLegal (launch inp pending tick) := Nat.zero_le 9
    exact runFor_induction (fun _ => step_codeLegal) launched h

end Sys2Proof.Safety

/-! SUPPORT. A block with another input sample: what a row does with a sample that agrees on what it reads, and when the
step is the same. -/

namespace Sys2Proof.Machine

open Sys2Proof

/-- The block with the input ports of the coming step reading `x` (R31). -/
def State.withInp (x : Inputs) (s : State) : State := { s with inp := x }

/-- What the environment presents next does not depend on the sample before it (R6). -/
@[simp] theorem State.presentNext_withInp (x : Inputs) (s : State) : (s.withInp x).presentNext = s.presentNext := by
  cases hp : s.pending with
  | nil => rw [State.presentNext_nil hp, State.presentNext_nil (s := s.withInp x) hp]; rfl
  | cons y ys => rw [State.presentNext_cons hp, State.presentNext_cons (s := s.withInp x) hp]; rfl

/-! ### Operations under a sample that agrees on what they read -/

section
variable {s : State} {x : Inputs}

theorem State.enter_withInp (hn : x.now = s.inp.now) (n : FsmState) :
    (s.withInp x).enter n = (s.enter n).withInp x := by
  simp [State.enter, State.withInp, hn]

theorem State.elapsed_withInp (hn : x.now = s.inp.now) : (s.withInp x).elapsed = s.elapsed :=
  congrArg (duration s.tMark) hn

/-- R121: a HOLD reads the clock alone. -/
theorem State.hold_withInp (hn : x.now = s.inp.now) (T : Nat) (n : FsmState) :
    (s.withInp x).hold T n = (s.hold T n).withInp x := by
  rw [State.hold, State.elapsed_withInp hn, State.enter_withInp hn]
  exact (apply_ite (State.withInp x) _ _ _).symm

/-- R120, R151: a wait reads the line and the clock, and what its match reads. -/
theorem State.awaitLevel_withInp {f : State → State} (hl : x.line = s.inp.line) (hn : x.now = s.inp.now)
    (hf : f (s.withInp x) = (f s).withInp x) (L : Bool) (T : Nat) :
    (s.withInp x).awaitLevel L T f = (s.awaitLevel L T f).withInp x := by
  have line : (s.withInp x).lineRead = s.lineRead := hl
  rw [State.awaitLevel, line, State.elapsed_withInp hn, hf, State.awaitLevel, apply_ite (State.withInp x),
    apply_ite (State.withInp x)]
  rfl

theorem State.wait_withInp (hl : x.line = s.inp.line) (hn : x.now = s.inp.now) (L : Bool) (T : Nat) (n : FsmState) :
    (s.withInp x).wait L T n = (s.wait L T n).withInp x :=
  State.awaitLevel_withInp hl hn (State.enter_withInp hn n) L T

/-- R151: the end of a pulse reads the clock alone. -/
theorem State.endPulse_withInp (hn : x.now = s.inp.now) : (s.withInp x).endPulse = s.endPulse.withInp x := by
  simp [State.endPulse_eq, State.withInp, State.storeBit, State.enter, hn]

/-- A row reads the line and the clock at most: with a sample that agrees on both it writes the same. -/
theorem exec_withInp {i : Instr} {t : State} (hl : x.line = s.inp.line) (hn : x.now = s.inp.now)
    (h : exec i s = .next t) : exec i (s.withInp x) = .next (t.withInp x) := by
  cases i <;> cases h
  case idle | convert => rfl
  case decode => exact congrArg _ (State.enter_withInp (s := s.clearDone.clearCall) hn _)
  case validate =>
    rw [apply_ite (State.withInp x)]
    rfl
  case startLow | startHigh => exact congrArg _ (State.hold_withInp (s := s.clearDone) hn _ _)
  case bitWaitFall =>
    exact congrArg _ (State.awaitLevel_withInp (s := s.clearDone) hl hn (State.endPulse_withInp hn) _ _)
  case hsWaitLow1 | hsWaitHigh | hsWaitLow2 | bitWaitRise =>
    exact congrArg _ (State.wait_withInp (s := s.clearDone) hl hn _ _ _)

/-- The step is the same under a sample with the same `rst` under which the row does the same: the next sample then
replaces either. -/
theorem step_withInp (hr : x.rst = s.inp.rst)
    (hrow : s.inp.rst = false → ∀ n u, s.st = FsmState.code n → exec (n.row s.inp.req) s = .next u →
      exec (n.row x.req) (s.withInp x) = .next (u.withInp x)) :
    step (s.withInp x) = step s := by
  cases hrst : s.inp.rst with
  | true =>
    rw [step_reset hrst, step_reset (s := s.withInp x) (hr.trans hrst)]
    exact congrArg _ (State.presentNext_withInp x s.applyReset)
  | false =>
    have hrst' : (s.withInp x).inp.rst = false := hr.trans hrst
    obtain ⟨n, hn⟩ | hres := FsmState.eq_code_or_reserved s.st
    · obtain ⟨u, hu⟩ := exec_next (n.row s.inp.req) s
      have hu' : exec (n.row (s.withInp x).inp.req) (s.withInp x) = .next (u.withInp x) := hrow hrst n u hn hu
      rw [step_row hrst hn, step_row hrst' hn, hu, hu']
      exact congrArg Host.Outcome.next (State.presentNext_withInp x u)
    · rw [step_reserved hrst hres, step_reserved hrst' hres]
      rfl

end

/-- R100: without reset, the row of a state's code. -/
theorem decodeWord_fetchWord {s : State} {n : FsmState} (hr : s.inp.rst = false) (hn : s.st = n.code) :
    decodeWord s.fetchWord = .ok (n.row s.inp.req) := by
  rw [State.fetchWord, hr, hn, decodeWord_code]

/-- R101, R211: the ports of the state a DECODE leaves. -/
theorem outputs_startCall (s : State) :
    outputs (s.clearDone.clearCall.enter .startLow) =
      { lineOe := true, lineOut := false, busy := true, done := false, outcome := 0b00,
        humTenths := 0, tempSign := false, tempMag := 0, tempTenths := 0 } :=
  rfl

end Sys2Proof.Machine

namespace Sys2Proof.Safety

open Sys2Proof Sys2Proof.Machine

/-- Settles O13: outside IDLE the row is the same for every `req` (`FsmState.row_eq_of_ne_idle`), and no row reads it. -/
theorem requestIgnoredDuringCall : Obligations.RequestIgnoredDuringCall := by
  intro s q hs
  refine step_withInp (x := { s.inp with req := q }) rfl fun _ n u hn hu => ?_
  have notIdle : n ≠ .idle := by rintro rfl; exact hs hn
  rw [FsmState.row_eq_of_ne_idle notIdle q s.inp.req]
  exact exec_withInp rfl rfl hu

/-- Settles O11: the row is `clearDone`, and the code of IDLE is neither START_LOW's nor START_HIGH's. -/
theorem idleHoldResult : Obligations.IdleHoldResult := by
  intro s
  refine ⟨rfl, fun hr hq hs => ?_, fun hs => ?_⟩
  · have row := decodeWord_fetchWord (n := .idle) hr hs
    rwa [hq] at row
  · obtain ⟨released, -⟩ := line_input_of_ne (s := s) (by simp [hs]) (by simp [hs])
    exact released

/-- Settles O12: the row is `clearDone`, `clearCall` and `enter`, and the ports show what they write (`outputs_startCall`). -/
theorem decodeCommandStartsCall : Obligations.DecodeCommandStartsCall := by
  intro s
  refine ⟨rfl, fun hr hq hs => ?_, fun t h => ?_⟩
  · have row := decodeWord_fetchWord (n := .idle) hr hs
    rwa [hq] at row
  · cases h
    exact outputs_startCall s

end Sys2Proof.Safety

/-! SUPPORT. The timing primitives by their conditions, and what the hold and wait rows of the start handshake do. -/

namespace Sys2Proof.Machine

open Sys2Proof

/-! ### WAIT and HOLD, one equation per case -/

section
variable {s : State} {L : Bool} {T : Nat}

/-- R120, R151: the level is there, whatever the time. -/
theorem State.awaitLevel_match (hl : s.inp.line = L) (f : State → State) : s.awaitLevel L T f = f s :=
  if_pos hl

/-- R120, R151: the level is not there, and the time has passed. -/
theorem State.awaitLevel_timeout (hl : s.inp.line ≠ L) (ht : T < s.elapsed.toNat) (f : State → State) :
    s.awaitLevel L T f = s.finish .timeout :=
  (if_neg hl).trans (if_pos ht)

/-- R120, R151: the level is not there, and there is time left. -/
theorem State.awaitLevel_poll (hl : s.inp.line ≠ L) (ht : s.elapsed.toNat ≤ T) (f : State → State) :
    s.awaitLevel L T f = s :=
  (if_neg hl).trans (if_neg ht.not_gt)

theorem State.hold_end (ht : T ≤ s.elapsed.toNat) (n : FsmState) : s.hold T n = s.enter n :=
  if_pos ht

theorem State.hold_poll (ht : s.elapsed.toNat < T) (n : FsmState) : s.hold T n = s :=
  if_neg ht.not_ge

end

end Sys2Proof.Machine

namespace Sys2Proof.Safety

open Sys2Proof Sys2Proof.Machine

/-- Settles O15: WAIT is `awaitLevel` with the entry of the successor as what it does on a match. -/
theorem waitTestsLevelThenTimeout : Obligations.WaitTestsLevelThenTimeout := by
  intro level timeout next s
  refine ⟨fun hl => ?_, fun hl ht => ?_, fun hl ht => ?_⟩
  · exact State.awaitLevel_match hl _
  · exact State.awaitLevel_timeout hl ht _
  · exact State.awaitLevel_poll hl ht _

/-- Settles O16: the two cases of HOLD, where going on is the entry of the successor. -/
theorem holdLastsAtLeastItsTime : Obligations.HoldLastsAtLeastItsTime := by
  intro time next s
  exact ⟨fun ht => State.hold_end ht next, fun ht => State.hold_poll ht next⟩

/-! ### The rows of the hold and wait states -/

/-- R122, R123: the row of a hold state is its HOLD. -/
theorem exec_row_of_holdTime {n : FsmState} {T : Nat} (hn : n.holdTime = some T) (q : Bool) (s : State) :
    exec (n.row q) s = .next (s.clearDone.hold T n.succ) := by
  obtain rfl | rfl := FsmState.eq_of_holdTime hn <;> cases hn <;> rfl

/-- R124 to R126, R150: the row of a wait state other than BIT_WAIT_FALL is its WAIT. -/
theorem exec_row_of_awaitedLevel {n : FsmState} {L : Bool} (hn : awaitedLevel n.code = some L) (hf : n ≠ .bitWaitFall)
    (q : Bool) (s : State) : exec (n.row q) s = .next (s.clearDone.wait L 100 n.succ) := by
  obtain rfl | rfl | rfl | rfl | rfl := eq_of_awaitedLevel hn
  case inr.inr.inr.inr => exact absurd rfl hf
  all_goals
    cases hn
    rfl

/-- R211: a block that awaits a level leaves the line to the sensor. -/
theorem lineOe_of_awaitedLevel {s : State} {L : Bool} (h : awaitedLevel s.st = some L) : (outputs s).lineOe = false := by
  have notDriving {c : StCode} (hc : awaitedLevel c = none) : s.st ≠ c := by
    rintro rfl
    cases hc.symm.trans h
  obtain ⟨released, -⟩ := line_input_of_ne (notDriving rfl) (notDriving rfl)
  exact released

/-- R122, R123: the two ends of a step in a hold state, and its word. -/
theorem holdState_result {n : FsmState} {T : Nat} (hn : n.holdTime = some T) (s : State) :
    (T ≤ waited s → exec (n.row s.inp.req) s = .next (s.clearDone.enter n.succ)) ∧
    (waited s < T → exec (n.row s.inp.req) s = .next s.clearDone) ∧
    (s.st = n.code → s.inp.rst = false → decodeWord s.fetchWord = .ok (n.row s.inp.req)) := by
  obtain ⟨onEnd, onPoll⟩ := holdLastsAtLeastItsTime T n.succ s.clearDone
  rw [exec_row_of_holdTime hn]
  exact ⟨fun ht => congrArg _ (onEnd ht), fun ht => congrArg _ (onPoll ht), fun hs hr => decodeWord_fetchWord hr hs⟩

/-- R124 to R126, R150: the three ends of a step in a wait state other than BIT_WAIT_FALL, its released line and its
word. -/
theorem waitState_result {n : FsmState} {L : Bool} (hn : awaitedLevel n.code = some L) (hf : n ≠ .bitWaitFall)
    (s : State) :
    (s.inp.line = L → exec (n.row s.inp.req) s = .next (s.clearDone.enter n.succ)) ∧
    (s.inp.line = !L → 100 < waited s → exec (n.row s.inp.req) s = .next (s.clearDone.finish .timeout)) ∧
    (s.inp.line = !L → waited s ≤ 100 → exec (n.row s.inp.req) s = .next s.clearDone) ∧
    (s.st = n.code → (outputs s).lineOe = false) ∧
    (s.st = n.code → s.inp.rst = false → decodeWord s.fetchWord = .ok (n.row s.inp.req)) := by
  obtain ⟨onMatch, onTimeout, onPoll⟩ := waitTestsLevelThenTimeout L 100 n.succ s.clearDone
  have notThere (hl : s.inp.line = !L) : s.inp.line ≠ L := Bool.eq_not.1 hl
  rw [exec_row_of_awaitedLevel hn hf]
  refine ⟨fun hl => ?_, fun hl ht => ?_, fun hl ht => ?_, fun hs => ?_, fun hs hr => decodeWord_fetchWord hr hs⟩
  · exact congrArg _ (onMatch hl)
  · exact congrArg _ (onTimeout (notThere hl) ht)
  · exact congrArg _ (onPoll (notThere hl) ht)
  · exact lineOe_of_awaitedLevel (hs ▸ hn)

/-! ### The start signal and the three handshake waits -/

/-- Settles O17: START_LOW holds 18000 us, and its code is the one that drives the line low. -/
theorem startLowResult : Obligations.StartLowResult := by
  intro s
  obtain ⟨onEnd, onPoll, word⟩ := holdState_result (n := .startLow) rfl s
  exact ⟨onEnd, onPoll, fun hs => by simp [outputs_lineOe, outputs_lineOut, hs], word⟩

/-- Settles O18: START_HIGH holds 30 us driving the line high, and HS_WAIT_LOW1 after it awaits a level, so it drives
nothing. -/
theorem startHighResult : Obligations.StartHighResult := by
  intro s
  obtain ⟨onEnd, onPoll, word⟩ := holdState_result (n := .startHigh) rfl s
  have released : (outputs (s.clearDone.enter .hsWaitLow1)).lineOe = false := lineOe_of_awaitedLevel (L := false) rfl
  exact ⟨fun ht => ⟨onEnd ht, released⟩, onPoll, fun hs => by simp [outputs_lineOe, outputs_lineOut, hs], word⟩

/-- Settles O19: HS_WAIT_LOW1 is a wait state for 0. -/
theorem hsWaitLow1Result : Obligations.HsWaitLow1Result :=
  waitState_result (n := .hsWaitLow1) (L := false) rfl nofun

/-- Settles O20: HS_WAIT_HIGH is a wait state for 1. -/
theorem hsWaitHighResult : Obligations.HsWaitHighResult :=
  waitState_result (n := .hsWaitHigh) (L := true) rfl nofun

/-- Settles O21: HS_WAIT_LOW2 is a wait state for 0, and by the invariant no bit has arrived before bit sampling. -/
theorem hsWaitLow2Result : Obligations.HsWaitLow2Result := by
  intro s
  obtain ⟨onMatch, onTimeout, onPoll, released, word⟩ := waitState_result (n := .hsWaitLow2) (L := false) rfl nofun s
  refine ⟨onMatch, onTimeout, onPoll, released, word, fun hs hinv => ?_⟩
  obtain ⟨-, -, -, -, noBits, -⟩ := hinv
  exact noBits (by simp [hs])

end Sys2Proof.Safety

/-! SUPPORT. Bit sampling: a pulse's duration and bit, what the end of a pulse writes, and what a timeout shows. -/

namespace Sys2Proof.Machine

open Sys2Proof

/-- R153 with R4's threshold. -/
theorem bitval_iff {d : U32} : bitval d = true ↔ 40 < d.toNat :=
  decide_eq_true_iff

/-- R152: the duration of a pulse that lasts `d`, across a wrap of the clock too. -/
theorem duration_add (tr d : U32) : duration tr (tr + d) = d :=
  add_sub_cancel_left tr d

/-- R154: the bit shifted in is the frame's new bit 0. -/
theorem shiftIn_bitval (f : FrameWord) (d : U32) :
    shiftIn f (bitval d) = (f <<< 1) ||| (if 40 < d.toNat then 1 else 0) := by
  by_cases h : 40 < d.toNat
  · rw [bitval_iff.2 h, if_pos h]; rfl
  · rw [Bool.eq_false_iff.2 (mt bitval_iff.1 h), if_neg h]; rfl

/-- R155: the code written at the end of a pulse, by the six-bit count. -/
theorem code_afterPulse (c : BitVec 6) :
    (if c.toNat = 40 then FsmState.validate else .bitWaitRise).code = if c = 40 then 0b1000 else 0b0110 := by
  have count_iff : c = 40 ↔ c.toNat = 40 := BitVec.toNat_inj.symm
  rw [apply_ite FsmState.code]
  simp only [count_iff, FsmState.code]

/-- The environment's samples reach no port (R32). -/
@[simp] theorem outputs_presentNext (s : State) : outputs s.presentNext = outputs s := by
  cases hp : s.pending with
  | nil => rw [State.presentNext_nil hp]; rfl
  | cons x xs => rw [State.presentNext_cons hp]; rfl

/-- R201, R211: a timeout of a block whose result registers are clear shows TIMEOUT and zeros. -/
theorem outputs_finish_timeout {s : State} (hh : s.hum = 0) (hs : s.tsign = false) (hm : s.tmag = 0) :
    outputs (s.finish .timeout) =
      { lineOe := false, lineOut := true, busy := false, done := true, outcome := 0b10,
        humTenths := 0, tempSign := false, tempMag := 0, tempTenths := 0 } := by
  have noTemp : (s.finish .timeout).tempTenths = 0 := by simp [State.tempTenths, hs, hm]
  rw [outputs, noTemp, State.finish_hum, State.finish_tsign, State.finish_tmag, hh, hs, hm]
  rfl

end Sys2Proof.Machine

namespace Sys2Proof.Safety

open Sys2Proof Sys2Proof.Machine

/-- Settles O24: subtraction of 32-bit words is modular, and the threshold test is strict. -/
theorem pulseDurationAndBit : Obligations.PulseDurationAndBit := by
  refine ⟨fun tr tf => ?_, fun tr d hd => ?_, fun d => bitval_iff⟩
  · have := tr.isLt
    rw [duration_eq, BitVec.toNat_sub]
    omega
  · rw [duration_add, BitVec.toNat_ofNat, Nat.mod_eq_of_lt hd]

/-! ### The rows of the two sampling waits -/

/-- Settles O22: BIT_WAIT_RISE is a wait state for 1. -/
theorem bitWaitRiseResult : Obligations.BitWaitRiseResult :=
  waitState_result (n := .bitWaitRise) (L := true) rfl nofun

/-- R124 to R126, R150, R151: every wait state's row tests its level, then a timeout of 100 us. -/
theorem exec_row_awaitLevel {n : FsmState} {L : Bool} (hn : awaitedLevel n.code = some L) (q : Bool) (s : State) :
    ∃ f, exec (n.row q) s = .next (s.clearDone.awaitLevel L 100 f) := by
  by_cases hf : n = .bitWaitFall
  · subst hf
    cases hn
    exact ⟨State.endPulse, rfl⟩
  · exact ⟨State.enter n.succ, exec_row_of_awaitedLevel hn hf q s⟩

/-- R151: what the end of a pulse in BIT_WAIT_FALL writes. -/
theorem clearDone_endPulse (s : State) :
    s.clearDone.endPulse = { s with
      done := false,
      frame := (s.frame <<< 1) ||| (if 40 < (s.inp.now - s.tMark).toNat then 1 else 0),
      bitcnt := s.bitcnt + 1,
      tMark := s.inp.now,
      st := if s.bitcnt + 1 = 40 then 0b1000 else 0b0110 } := by
  rw [← shiftIn_bitval, ← code_afterPulse]
  rfl

/-- Settles O23: the level test and the timeout of a wait for 0, whose match is the end of a pulse
(`clearDone_endPulse`). -/
theorem bitWaitFallResult : Obligations.BitWaitFallResult := by
  intro s
  have highAwaited (hl : s.inp.line = true) : s.clearDone.inp.line ≠ false := ne_false_of_eq_true hl
  refine ⟨fun hl => ?_, fun hl ht => ?_, fun hl ht => ?_, fun hs => ?_, fun hs hr => ?_⟩
  · rw [← clearDone_endPulse]
    exact congrArg _ (State.awaitLevel_match (s := s.clearDone) hl State.endPulse)
  · exact congrArg _ (State.awaitLevel_timeout (highAwaited hl) ht State.endPulse)
  · exact congrArg _ (State.awaitLevel_poll (highAwaited hl) ht State.endPulse)
  · exact lineOe_of_awaitedLevel (L := false) (hs ▸ rfl)
  · exact decodeWord_fetchWord (n := .bitWaitFall) hr hs

/-! ### A timed out step -/

/-- A reserved code awaits no level. -/
theorem awaitedLevel_reserved {c : StCode} (h : 10 ≤ c.toNat) : awaitedLevel c = none := by
  revert c
  decide

/-- What awaits a level is the code of a state. -/
theorem eq_code_of_awaitedLevel {c : StCode} {L : Bool} (h : awaitedLevel c = some L) : ∃ n, c = FsmState.code n := by
  obtain hn | hres := FsmState.eq_code_or_reserved c
  · exact hn
  · cases (awaitedLevel_reserved hres).symm.trans h

/-- R200, R201: without reset, a step that times out finishes the call and writes nothing else. -/
theorem step_of_timesOut {s : State} (hr : s.inp.rst = false) (ht : timesOut s = true) :
    step s = .next (s.clearDone.finish .timeout).presentNext := by
  obtain ⟨L, hL, hl, hw⟩ := (timesOut_iff s).1 ht
  obtain ⟨n, hn⟩ := eq_code_of_awaitedLevel hL
  obtain ⟨f, hf⟩ := exec_row_awaitLevel (hn ▸ hL) s.inp.req s
  rw [step_row hr hn, hf, State.awaitLevel_timeout (s := s.clearDone) hl hw]
  rfl

/-- Settles O37: the invariant bounds `bitcnt` while sampling and keeps the result registers clear while no `OK` is
recorded, and the timed out step (`step_of_timesOut`) writes neither. -/
theorem samplingTimeoutExposesNothing : Obligations.SamplingTimeoutExposesNothing := by
  intro s hinv hst hr ht
  obtain ⟨-, -, ⟨inCall, -⟩, results, -, hframe, -, -⟩ := hinv
  obtain ⟨count, -⟩ := hframe hst
  have notIdle : s.st ≠ FsmState.idle.code := by obtain h | h := hst <;> simp [h, FsmState.code]
  obtain ⟨noOutcome, -⟩ := inCall notIdle
  obtain ⟨hh, hs, hm⟩ := results (by simp [noOutcome])
  refine ⟨count, _, step_of_timesOut hr ht, by simp, ?_⟩
  rw [outputs_presentNext]
  exact outputs_finish_timeout hh hs hm

end Sys2Proof.Safety

/-! SUPPORT. Validation and conversion: the two ends of VALIDATE, what CONVERT publishes, and what a bad checksum
shows. -/

namespace Sys2Proof.Machine

open Sys2Proof

/-- R180: the frame validates when its checksum is byte 4, the low byte of the frame. -/
theorem checksumOk_iff_csum_eq {f : FrameWord} : checksumOk f = true ↔ csum f = f.extractLsb' 0 8 :=
  beq_iff_eq

/-- R181 on a match. -/
theorem exec_validate_match {s : State} (hc : checksumOk s.frame = true) :
    exec .validate s = .next (s.clearDone.goto .convert) :=
  congrArg Host.Outcome.next (if_pos hc)

/-- R181 on a mismatch. -/
theorem exec_validate_mismatch {s : State} (hc : checksumOk s.frame ≠ true) :
    exec .validate s = .next (s.clearDone.finish .checksum) :=
  congrArg Host.Outcome.next (if_neg hc)

/-- R201: which outcome a finish records shows on the port `outcome` alone. -/
theorem outputs_finish (c c' : CallOutcome) (s : State) :
    outputs (s.finish c) = { outputs (s.finish c') with outcome := c.code } :=
  rfl

end Sys2Proof.Machine

namespace Sys2Proof.Safety

open Sys2Proof Sys2Proof.Machine

/-- R200, R201: without reset, a VALIDATE step on a bad checksum finishes the call and writes nothing else. -/
theorem step_of_checksumFails {s : State} (hr : s.inp.rst = false) (hf : checksumFails s = true) :
    step s = .next (s.clearDone.finish .checksum).presentNext := by
  obtain ⟨hs, hc⟩ := (checksumFails_iff s).1 hf
  have row : exec (FsmState.validate.row s.inp.req) s = .next (s.clearDone.finish .checksum) :=
    exec_validate_mismatch (ne_true_of_eq_false hc)
  rw [step_row hr hs, row]
  rfl

/-- Settles O39: the invariant keeps the result registers clear during a call, the failing step
(`step_of_checksumFails`) does not write them, and the ports differ from a timeout's in the outcome alone. -/
theorem checksumFailureExposesNothing : Obligations.ChecksumFailureExposesNothing := by
  intro s hinv hr hf
  obtain ⟨-, -, ⟨inCall, -⟩, results, -⟩ := hinv
  obtain ⟨hst, -⟩ := (checksumFails_iff s).1 hf
  obtain ⟨noOutcome, -⟩ := inCall (by simp [hst])
  obtain ⟨hh, hs, hm⟩ := results (by simp [noOutcome])
  refine ⟨_, step_of_checksumFails hr hf, ?_⟩
  rw [outputs_presentNext, outputs_finish .checksum .timeout, outputs_finish_timeout (s := s.clearDone) hh hs hm]
  rfl

/-- Settles O26: the sum of four bytes fits ten bits (`csum_toNat`), and validation compares it with byte 4. -/
theorem checksumIsByteSum : Obligations.ChecksumIsByteSum :=
  fun f => ⟨csum_toNat f, checksumOk_iff f⟩

/-- Settles O28: the checksum of the frame decides between the two ends of VALIDATE, and its code drives nothing. -/
theorem validateResult : Obligations.ValidateResult := by
  intro s
  refine ⟨fun hc => ?_, fun hc => ?_, fun hs => ?_, fun hs hr => ?_⟩
  · exact exec_validate_match (checksumOk_iff_csum_eq.2 hc)
  · exact exec_validate_mismatch (mt checksumOk_iff_csum_eq.1 hc)
  · obtain ⟨released, -⟩ := line_input_of_ne (s := s) (by simp [hs]) (by simp [hs])
    exact released
  · exact decodeWord_fetchWord (n := .validate) hr hs

/-- Settles O29: CONVERT is `publish` and `finish`, the bytes of the frame are its slices, and its code drives nothing. -/
theorem convertResult : Obligations.ConvertResult := by
  intro s
  refine ⟨rfl, fun hs => ?_, fun hs hr => ?_⟩
  · obtain ⟨released, -⟩ := line_input_of_ne (s := s) (by simp [hs]) (by simp [hs])
    exact released
  · exact decodeWord_fetchWord (n := .convert) hr hs

end Sys2Proof.Safety

/-! SUPPORT. The finish sequence: what it writes, and which of the three finishing steps records which outcome. -/

namespace Sys2Proof.Machine

open Sys2Proof

/-- R201: the finish sequence as one write. -/
theorem State.finish_eq (c : CallOutcome) (s : State) :
    s.finish c = { s with outcome := c, done := true, st := 0b0000 } :=
  rfl

/-- R182, R201: without reset, a CONVERT step publishes and finishes. -/
theorem step_convert {s : State} (hr : s.inp.rst = false) (hs : s.st = FsmState.convert.code) :
    step s = .next (s.clearDone.publish.finish .ok).presentNext := by
  rw [step_row hr hs]
  rfl

end Sys2Proof.Machine

namespace Sys2Proof.Safety

open Sys2Proof Sys2Proof.Machine

/-- R201, R211: after a finish the line is an input. -/
theorem outputs_finish_lineOe (c : CallOutcome) (s : State) : (outputs (s.finish c)).lineOe = false := by
  obtain ⟨released, -⟩ := line_input_of_ne (s := s.finish c) (by simp [FsmState.code]) (by simp [FsmState.code])
  exact released

/-- R26, R200: a step that sets `done` is one of three finishes, each with the outcome it records. -/
theorem outcome_of_step_done {s t : State} (h : step s = .next t) (hd : t.done = true) :
    s.inp.rst = false ∧
      ((timesOut s = true ∧ t.outcome = .timeout) ∨ (checksumFails s = true ∧ t.outcome = .checksum) ∨
        (s.st = FsmState.convert.code ∧ t.outcome = .ok)) := by
  obtain ⟨hr, ht | hf | hs⟩ := (doneMarksExactlyTheFinish s t h).1 hd
  · cases (step_of_timesOut hr ht).symm.trans h
    exact ⟨hr, .inl ⟨ht, by simp⟩⟩
  · cases (step_of_checksumFails hr hf).symm.trans h
    exact ⟨hr, .inr (.inl ⟨hf, by simp⟩)⟩
  · cases (step_convert hr hs).symm.trans h
    exact ⟨hr, .inr (.inr ⟨hs, by simp⟩)⟩

/-- Settles O35: a step that finishes records the outcome of its cause (`outcome_of_step_done`), which tells the causes
apart; and under each condition the step is that finish (`step_of_timesOut`, `step_of_checksumFails`). -/
theorem failureCausesAreExactlyTwo : Obligations.FailureCausesAreExactlyTwo := by
  refine ⟨rfl, rfl, fun s t h => ⟨⟨fun ⟨hd, ho⟩ => ?_, fun ⟨hr, ht⟩ => ?_⟩, ⟨fun ⟨hd, ho⟩ => ?_, fun ⟨hr, hf⟩ => ?_⟩⟩⟩
  · obtain ⟨hr, ⟨ht, -⟩ | ⟨-, other⟩ | ⟨-, other⟩⟩ := outcome_of_step_done h hd
    · exact ⟨hr, ht⟩
    · cases ho.symm.trans other
    · cases ho.symm.trans other
  · cases (step_of_timesOut hr ht).symm.trans h
    simp
  · obtain ⟨hr, ⟨-, other⟩ | ⟨hf, -⟩ | ⟨-, other⟩⟩ := outcome_of_step_done h hd
    · cases ho.symm.trans other
    · exact ⟨hr, hf⟩
    · cases ho.symm.trans other
  · cases (step_of_checksumFails hr hf).symm.trans h
    simp

/-- Settles O34: both failures are `finish` (`State.finish_eq`); CONVERT ends in it too, where its `done <- 1` replaces the
row's default `done <- 0`; and it leaves the line undriven (`outputs_finish_lineOe`). -/
theorem finishSequence : Obligations.FinishSequence := by
  intro s
  have convert : exec .convert s = .next (s.publish.finish .ok) := rfl
  exact ⟨State.finish_eq _ s, State.finish_eq _ s, convert, outputs_finish_lineOe _ s, outputs_finish_lineOe _ s⟩

end Sys2Proof.Safety

/-! SUPPORT. Reset and the result ports: what a reset shows, and when a result port is not 0. -/

namespace Sys2Proof.Machine

open Sys2Proof

/-- R28: the port `busy`. -/
theorem outputs_busy_iff (s : State) : (outputs s).busy = true ↔ s.st ≠ FsmState.idle.code :=
  bne_iff_ne

/-- R30: a zero magnitude is temperature 0, whatever the sign register holds. -/
theorem outputs_tempTenths_of_tmag {s : State} (h : s.tmag = 0) : (outputs s).tempTenths = 0 := by
  change s.tempTenths = 0
  cases hs : s.tsign <;> simp [State.tempTenths, hs, h]

/-- R230, R211: the ports of a reset block. -/
theorem outputs_applyReset (s : State) :
    outputs s.applyReset =
      { lineOe := false, lineOut := true, busy := false, done := false, outcome := 0b00,
        humTenths := 0, tempSign := false, tempMag := 0, tempTenths := 0 } :=
  rfl

end Sys2Proof.Machine

namespace Sys2Proof.Safety

open Sys2Proof Sys2Proof.Machine

/-- R25, R28: while busy the outcome is NONE. -/
theorem outcome_eq_none_of_busy {s : State} (flags : FlagsLegal s) (h : (outputs s).busy = true) : s.outcome = .none := by
  obtain ⟨inCall, -⟩ := flags
  obtain ⟨noOutcome, -⟩ := inCall ((outputs_busy_iff s).1 h)
  exact noOutcome

/-- R27, R235: without `OK` all four result ports read 0. -/
theorem resultPorts_zero {s : State} (results : ResultsLegal s) (h : s.outcome ≠ .ok) :
    (outputs s).humTenths = 0 ∧ (outputs s).tempSign = false ∧ (outputs s).tempMag = 0 ∧ (outputs s).tempTenths = 0 := by
  obtain ⟨hh, hs, hm⟩ := results h
  exact ⟨hh, hs, hm, outputs_tempTenths_of_tmag hm⟩

/-- Settles O40: during a call the outcome is NONE (`outcome_eq_none_of_busy`), and without `OK` the result ports read 0
(`resultPorts_zero`); so a port that is not 0 needs `OK`, which is no outcome of a busy block. -/
theorem resultPortsValidity : Obligations.ResultPortsValidity := by
  rintro s ⟨-, -, flags, results, -⟩
  refine ⟨fun hb => ?_, fun ho => ?_, fun hport => ?_⟩
  · have noOutcome := outcome_eq_none_of_busy flags hb
    exact ⟨congrArg CallOutcome.code noOutcome, resultPorts_zero results (by simp [noOutcome])⟩
  · have notOk : s.outcome ≠ .ok := fun ok => by simp [outputs, ok, CallOutcome.code] at ho
    exact resultPorts_zero results notOk
  · by_cases ok : s.outcome = .ok
    · have notBusy : (outputs s).busy ≠ true := fun hb => by cases ok.symm.trans (outcome_eq_none_of_busy flags hb)
      exact ⟨Bool.eq_false_iff.2 notBusy, congrArg CallOutcome.code ok⟩
    · simp [resultPorts_zero results ok] at hport

/-- Settles O9: the step is the reset of R230 (`step_reset`), and what the environment presents after it is no field of the
block and reaches no port (`outputs_presentNext`). -/
theorem resetStepWritesResetValues : Obligations.ResetStepWritesResetValues := by
  intro s hr
  refine ⟨_, step_reset hr, ?_⟩
  rw [outputs_presentNext, outputs_applyReset]
  simp

end Sys2Proof.Safety

/-! SUPPORT. The invariant: what it says in IDLE and during a call, and that every move of a row keeps it. -/

namespace Sys2Proof.Machine

open Sys2Proof

/-- R154 on numbers: the frame doubles and takes the new bit, in forty bits. -/
theorem toNat_shiftIn (f : FrameWord) (b : Bool) : (shiftIn f b).toNat = (2 * f.toNat + b.toNat) % 2 ^ 40 := by
  have noCarry : (f <<< 1) ||| (BitVec.ofBool b).setWidth 40 = (f <<< 1) + (BitVec.ofBool b).setWidth 40 := by
    refine (BitVec.add_eq_or_of_and_eq_zero _ _ ?_).symm
    ext i hi
    cases i <;> simp
  rw [shiftIn, noCarry, BitVec.toNat_add, BitVec.toNat_shiftLeft]
  cases b <;> simp <;> omega

end Sys2Proof.Machine

namespace Sys2Proof.Safety

open Sys2Proof Sys2Proof.Machine

/-- R25 to R27: during a call there is no outcome, no `done` and no reading. -/
structure CallClear (s : State) : Prop where
  outcome : s.outcome = .none
  done : s.done = false
  hum : s.hum = 0
  tsign : s.tsign = false
  tmag : s.tmag = 0

section
variable {s : State} (h : CallClear s)
include h

theorem CallClear.clearDone : CallClear s.clearDone := ⟨h.outcome, rfl, h.hum, h.tsign, h.tmag⟩
theorem CallClear.storeBit (b : Bool) : CallClear (s.storeBit b) := ⟨h.outcome, h.done, h.hum, h.tsign, h.tmag⟩
theorem CallClear.enter (n : FsmState) : CallClear (s.enter n) := ⟨h.outcome, h.done, h.hum, h.tsign, h.tmag⟩
theorem CallClear.goto (n : FsmState) : CallClear (s.goto n) := ⟨h.outcome, h.done, h.hum, h.tsign, h.tmag⟩

end

/-- R56, R129, R154, R155, R182: the count and the frame in each state of a call. -/
def BitsLegalAt (s : State) : FsmState → Prop
  | .idle => True
  | .startLow | .startHigh | .hsWaitLow1 | .hsWaitHigh | .hsWaitLow2 => s.bitcnt = 0 ∧ s.frame = 0
  | .bitWaitRise | .bitWaitFall => s.bitcnt.toNat < 40 ∧ s.frame.toNat < 2 ^ s.bitcnt.toNat
  | .validate => s.bitcnt = 40
  | .convert => s.bitcnt = 40 ∧ checksumOk s.frame = true

/-- The invariant in a state of a call. -/
theorem inv_iff_inCall {s : State} {n : FsmState} (hn : s.st = n.code) (hi : n ≠ .idle) :
    Inv s ↔ CallClear s ∧ BitsLegalAt s n := by
  constructor
  · rintro ⟨-, -, ⟨inCall, -⟩, results, noBits, sampling, ⟨count, valid⟩, -⟩
    obtain ⟨noOutcome, notDone⟩ := inCall (by rw [hn]; exact mt FsmState.code_inj.1 hi)
    obtain ⟨hh, hs, hm⟩ := results (by simp [noOutcome])
    refine ⟨⟨noOutcome, notDone, hh, hs, hm⟩, ?_⟩
    cases n
    case idle => trivial
    case startLow | startHigh | hsWaitLow1 | hsWaitHigh | hsWaitLow2 => exact noBits (by rw [hn]; decide)
    case bitWaitRise => exact sampling (.inl hn)
    case bitWaitFall => exact sampling (.inr hn)
    case validate => exact count (.inl hn)
    case convert => exact ⟨count (.inr hn), valid hn⟩
  · rintro ⟨⟨ho, hd, hh, hs, hm⟩, bits⟩
    have code : CodeLegal s := by rw [CodeLegal, hn]; exact n.code_toNat_le
    have counted : CountLegal s ∧ NoBitsBeforeSampling s ∧ FrameLegal s ∧ ValidationLegal s := by
      simp only [CountLegal, NoBitsBeforeSampling, FrameLegal, ValidationLegal, hn]
      cases n
      case idle => exact absurd rfl hi
      case startLow | startHigh | hsWaitLow1 | hsWaitHigh | hsWaitLow2 =>
        obtain ⟨count, frame⟩ := bits
        simp [count, frame, FsmState.code]
      case bitWaitRise | bitWaitFall =>
        obtain ⟨count, frame⟩ := bits
        simp [count, count.le, frame, FsmState.code]
      case validate => simp [show s.bitcnt = 40 from bits, FsmState.code]
      case convert =>
        obtain ⟨count, valid⟩ := bits
        simp [count, valid, FsmState.code]
    obtain ⟨count, noBits, sampling, valid⟩ := counted
    exact ⟨code, count, by simp [FlagsLegal, ho, hd], fun _ => ⟨hh, hs, hm⟩, noBits, sampling, valid,
      by simp [OutcomeLegal, ho]⟩

/-- The invariant in IDLE, where the last call's outcome stands. -/
theorem inv_iff_idle {s : State} (hn : s.st = FsmState.idle.code) :
    Inv s ↔ CountLegal s ∧ (s.done = true → s.outcome ≠ .none) ∧ ResultsLegal s ∧ OutcomeLegal s := by
  simp [Inv, CodeLegal, FlagsLegal, NoBitsBeforeSampling, FrameLegal, ValidationLegal, hn, FsmState.code]

/-! ### The invariant under the operations -/

theorem inv_presentNext {s : State} : Inv s.presentNext ↔ Inv s := by
  simp [Inv, CodeLegal, CountLegal, FlagsLegal, ResultsLegal, NoBitsBeforeSampling, FrameLegal, ValidationLegal,
    OutcomeLegal]

/-- R38: reset, under any samples, meets the invariant. -/
theorem inv_launch (inp : Inputs) (pending : List Inputs) (tick : Nat) : Inv (launch inp pending tick) :=
  (inv_iff_idle rfl).2 ⟨Nat.zero_le 40, nofun, fun _ => ⟨rfl, rfl, rfl⟩, nofun, nofun, nofun⟩

theorem inv_clearDone {s : State} (h : Inv s) : Inv s.clearDone := by
  obtain ⟨code, count, ⟨inCall, -⟩, results, noBits, sampling, valid, outcome⟩ := h
  exact ⟨code, count, ⟨fun hc => ⟨(inCall hc).1, rfl⟩, nofun⟩, results, noBits, sampling, valid, outcome⟩

/-- R101: a DECODE starts a legal call whatever the block held. -/
theorem inv_startCall (s : State) : Inv (s.clearDone.clearCall.enter .startLow) :=
  (inv_iff_inCall (n := .startLow) rfl nofun).2 ⟨⟨rfl, rfl, rfl, rfl, rfl⟩, rfl, rfl⟩

theorem succ_ne_idle {n : FsmState} (h : n ≠ .idle) : n.succ ≠ .idle := by
  cases n
  case idle => exact absurd rfl h
  all_goals nofun

theorem ne_idle_of_holdTime {n : FsmState} {T : Nat} (h : n.holdTime = some T) : n ≠ .idle := by
  rintro rfl
  cases h

theorem ne_idle_of_awaitedLevel {n : FsmState} {L : Bool} (h : awaitedLevel n.code = some L) : n ≠ .idle := by
  rintro rfl
  cases h

/-- R121, R120: going on to the successor receives no bit. -/
theorem bitsLegalAt_succ {s : State} {n : FsmState} (h : BitsLegalAt s n) : BitsLegalAt s n.succ := by
  cases n
  case hsWaitLow2 =>
    obtain ⟨count, frame⟩ := h
    simp [FsmState.succ, BitsLegalAt, count, frame]
  all_goals exact h

/-- R56, R157: a block that awaits a level has not received the 40th bit. -/
theorem bitcnt_lt_of_awaitedLevel {s : State} {n : FsmState} {L : Bool} (hL : awaitedLevel n.code = some L)
    (h : BitsLegalAt s n) : s.bitcnt.toNat < 40 := by
  obtain rfl | rfl | rfl | rfl | rfl := eq_of_awaitedLevel hL <;> obtain ⟨count, -⟩ := h
  case inr.inr.inr.inl | inr.inr.inr.inr => exact count
  all_goals simp [count]

/-- R120, R121: going on to the successor keeps the invariant. -/
theorem inv_enter_succ {s : State} {n : FsmState} (hn : s.st = n.code) (hi : n ≠ .idle) (hinv : Inv s) :
    Inv (s.clearDone.enter n.succ) := by
  obtain ⟨clear, bits⟩ := (inv_iff_inCall hn hi).1 hinv
  exact (inv_iff_inCall rfl (succ_ne_idle hi)).2 ⟨clear.clearDone.enter _, bitsLegalAt_succ (s := s.clearDone.enter _) bits⟩

/-- R201: a failed call leaves a legal block, when the outcome says what the count and the frame say. -/
theorem inv_finish {s : State} {c : CallOutcome} (clear : CallClear s) (count : CountLegal s) (hc : c ≠ .none)
    (hok : c ≠ .ok) (ht : c = .timeout → s.bitcnt.toNat < 40)
    (hf : c = .checksum → s.bitcnt = 40 ∧ checksumOk s.frame = false) : Inv (s.clearDone.finish c) :=
  (inv_iff_idle rfl).2 ⟨count, fun _ => hc, fun _ => ⟨clear.hum, clear.tsign, clear.tmag⟩, fun h => absurd h hok, ht, hf⟩

/-- R151, R154: the end of a pulse keeps the count and the frame legal. -/
theorem inv_endPulse {s : State} (clear : CallClear s) (bits : BitsLegalAt s .bitWaitFall) : Inv s.clearDone.endPulse := by
  obtain ⟨count, frame⟩ := bits
  have count' : (s.bitcnt + 1).toNat = s.bitcnt.toNat + 1 := by bv_omega
  rw [State.endPulse_eq]
  by_cases h40 : (s.clearDone.bitcnt + 1).toNat = 40
  · rw [if_pos h40, inv_iff_inCall (State.enter_st _ _) (by decide)]
    exact ⟨(clear.clearDone.storeBit _).enter _, BitVec.eq_of_toNat_eq h40⟩
  · rw [if_neg h40, inv_iff_inCall (State.enter_st _ _) (by decide)]
    refine ⟨(clear.clearDone.storeBit _).enter _, ?_, ?_⟩
    · change (s.bitcnt + 1).toNat ≠ 40 at h40
      change (s.bitcnt + 1).toNat < 40
      omega
    · change (shiftIn s.frame _).toNat < 2 ^ (s.bitcnt + 1).toNat
      rw [count', Nat.pow_succ, toNat_shiftIn]
      have := Bool.toNat_le (bitval (s.clearDone.inp.now - s.clearDone.tMark))
      exact (Nat.mod_le _ _).trans_lt (by omega)

/-- Every move of a row keeps the invariant. -/
theorem RowMove.keeps_inv {s u : State} {n : FsmState} (hn : s.st = n.code) (hinv : Inv s) (h : RowMove s n u) :
    Inv u := by
  have inCall (hi : n ≠ .idle) : CallClear s ∧ BitsLegalAt s n := (inv_iff_inCall hn hi).1 hinv
  have count : CountLegal s := by
    obtain ⟨-, count, -⟩ := hinv
    exact count
  cases h with
  | idleHold | holdPoll | waitPoll => exact inv_clearDone hinv
  | startCall => exact inv_startCall s
  | holdEnd hT => exact inv_enter_succ hn (ne_idle_of_holdTime hT) hinv
  | waitMatch hL => exact inv_enter_succ hn (ne_idle_of_awaitedLevel hL) hinv
  | waitTimeout hL =>
    obtain ⟨clear, bits⟩ := inCall (ne_idle_of_awaitedLevel hL)
    exact inv_finish clear count nofun nofun (fun _ => bitcnt_lt_of_awaitedLevel hL bits) nofun
  | bitEnd =>
    obtain ⟨clear, bits⟩ := inCall nofun
    exact inv_endPulse clear bits
  | validated hc =>
    obtain ⟨clear, bits⟩ := inCall nofun
    exact (inv_iff_inCall (n := .convert) rfl nofun).2 ⟨clear.clearDone.goto _, bits, hc⟩
  | rejected hc =>
    obtain ⟨clear, bits⟩ := inCall nofun
    exact inv_finish clear count nofun nofun nofun fun _ => ⟨bits, hc⟩
  | published =>
    obtain ⟨-, bits, hc⟩ := inCall nofun
    exact (inv_iff_idle rfl).2 ⟨count, nofun, fun h => absurd rfl h, fun _ => ⟨bits, hc, rfl, rfl, rfl⟩, nofun, nofun⟩

/-- Settles O49: a step is a reset, which launches the block anew, or a move of the state's row, which keeps the invariant
(`RowMove.keeps_inv`); and the sample presented next is no part of it (`inv_presentNext`). -/
theorem stepKeepsInv : Obligations.StepKeepsInv := by
  intro s t hinv h
  obtain ⟨-, rfl⟩ | ⟨-, n, u, hn, hm, rfl⟩ := step_moves h
  · exact inv_presentNext.2 (inv_launch s.inp s.pending s.tick)
  · exact inv_presentNext.2 (hm.keeps_inv hn hinv)

/-- Settles O48: the reset state holds no outcome, no bit and no reading (`inv_launch`). -/
theorem launchMeetsInv : Obligations.LaunchMeetsInv :=
  inv_launch

/-- From a state that meets the invariant a run never stops, and ends in such a state. -/
theorem runFor_of_inv {s : State} (hs : Inv s) (n : Nat) : ∃ t, runFor n s = .next t ∧ Inv t := by
  induction n generalizing s with
  | zero => exact ⟨s, rfl, hs⟩
  | succ n ih =>
    obtain ⟨u, hu⟩ | ⟨-, reserved, -⟩ := step_next_or_reserved s
    · rw [runFor_succ hu]
      exact ih (stepKeepsInv s u hs hu)
    · obtain ⟨legal, -⟩ := hs
      exact absurd (reserved.trans legal) (by decide)

/-- Settles O50: reset meets the invariant (`inv_launch`), and from there no run stops (`runFor_of_inv`). -/
theorem runsFromResetNeverStop : Obligations.RunsFromResetNeverStop :=
  fun inp pending tick n => runFor_of_inv (inv_launch inp pending tick) n

end Sys2Proof.Safety

/-! SUPPORT. What rows and steps leave alone: registers, result registers, marks, and the inputs they do not read. -/

namespace Sys2Proof.Safety

open Sys2Proof Sys2Proof.Machine

/-- A HOLD keeps every register but `st` and `t_mark`. -/
theorem hold_keeps (T : Nat) (n : FsmState) (s : State) :
    (s.hold T n).frame = s.frame ∧ (s.hold T n).bitcnt = s.bitcnt ∧ (s.hold T n).hum = s.hum ∧
    (s.hold T n).tsign = s.tsign ∧ (s.hold T n).tmag = s.tmag ∧ (s.hold T n).outcome = s.outcome ∧
    (s.hold T n).done = s.done := by
  obtain ⟨-, e⟩ | ⟨-, e⟩ := s.hold_cases T n <;> rw [e] <;> simp

/-- A wait keeps the result registers, and `outcome` unless it finishes the call, when its match does. -/
theorem awaitLevel_keeps (L : Bool) (T : Nat) {f : State → State} {s : State}
    (hf : (f s).hum = s.hum ∧ (f s).tsign = s.tsign ∧ (f s).tmag = s.tmag ∧ (f s).outcome = s.outcome) :
    ((s.awaitLevel L T f).hum = s.hum ∧ (s.awaitLevel L T f).tsign = s.tsign ∧ (s.awaitLevel L T f).tmag = s.tmag) ∧
    ((s.awaitLevel L T f).outcome ≠ s.outcome →
      (s.awaitLevel L T f).done = true ∧ (s.awaitLevel L T f).st = 0b0000) := by
  obtain ⟨hh, hs, hm, ho⟩ := hf
  obtain ⟨-, e⟩ | ⟨-, -, e⟩ | ⟨-, -, e⟩ := s.awaitLevel_cases L T f <;> rw [e]
  · exact ⟨⟨hh, hs, hm⟩, absurd ho⟩
  · exact ⟨⟨rfl, rfl, rfl⟩, fun _ => ⟨rfl, rfl⟩⟩
  · exact ⟨⟨rfl, rfl, rfl⟩, absurd rfl⟩

/-- R120: a WAIT keeps the frame and the count. -/
theorem wait_keeps_bits (L : Bool) (T : Nat) (n : FsmState) (s : State) :
    (s.wait L T n).frame = s.frame ∧ (s.wait L T n).bitcnt = s.bitcnt := by
  obtain ⟨-, e⟩ | ⟨-, -, e⟩ | ⟨-, -, e⟩ := s.awaitLevel_cases L T (State.enter n) <;> rw [State.wait, e] <;> simp

/-- Settles O41: no row touches the samples (`exec_env`); a HOLD keeps all registers but two (`hold_keeps`), a wait the
results and, unless it finishes, the outcome (`awaitLevel_keeps`); the other rows are their writes. -/
theorem rowsLeaveOtherRegisters : Obligations.RowsLeaveOtherRegisters := by
  intro i s t h
  refine ⟨exec_env h, ?_⟩
  cases i <;> cases h
  case idle | decode | convert => simp [FsmState.code]
  case validate => split <;> simp [FsmState.code]
  case startLow | startHigh => simp [hold_keeps]
  case bitWaitFall =>
    obtain ⟨results, outcome⟩ := awaitLevel_keeps false cfg.tBitTimeout (s := s.clearDone) (f := State.endPulse)
      ⟨rfl, rfl, rfl, rfl⟩
    exact ⟨nofun, fun _ _ => results, nofun, nofun, nofun, fun h => .inr (outcome h)⟩
  case hsWaitLow1 | hsWaitHigh | hsWaitLow2 | bitWaitRise =>
    obtain ⟨results, outcome⟩ := awaitLevel_keeps _ _ (s := s.clearDone) (f := State.enter _) ⟨rfl, rfl, rfl, rfl⟩
    exact ⟨fun _ _ => wait_keeps_bits _ _ _ s.clearDone, fun _ _ => results, nofun, nofun, nofun,
      fun h => .inr (outcome h)⟩

/-- Settles O42: of all moves only the start of a call and CONVERT write the result registers. -/
theorem resultsWrittenTwice : Obligations.ResultsWrittenTwice := by
  intro s t hr h
  obtain ⟨hr', -⟩ | ⟨-, n, u, hn, hm, rfl⟩ := step_moves h
  · cases hr.symm.trans hr'
  · cases hm with
    | startCall hq => exact .inr (.inl ⟨hn, hq, by simp⟩)
    | published => exact .inr (.inr ⟨hn, by simp⟩)
    | _ => exact .inl (by simp [State.endPulse_eq])

/-- Settles O44: a move that enters another hold or wait state marks the instant; the others keep `st`, or go to IDLE or
CONVERT. -/
theorem transitionsMarkTheInstant : Obligations.TransitionsMarkTheInstant := by
  intro s t hr h moved low high
  obtain ⟨hr', -⟩ | ⟨-, n, u, hn, hm, rfl⟩ := step_moves h
  · cases hr.symm.trans hr'
  · simp only [State.presentNext_st, State.presentNext_tMark] at moved low high ⊢
    cases hm with
    | idleHold | holdPoll | waitPoll => exact absurd rfl moved
    | startCall | holdEnd | waitMatch | bitEnd => rfl
    | waitTimeout | rejected | published => exact absurd low (by simp [FsmState.code])
    | validated => exact absurd high (by simp [FsmState.code])

/-- R155: the 40th bit ends a pulse that began with 39. -/
theorem bitcnt_eq_of_endPulse {s : State} (h : s.endPulse.bitcnt = 40) : s.bitcnt = 39 := by
  change s.bitcnt + 1 = 40 at h
  bv_omega

/-- Settles O45: a sampling state polls, times out, goes on to the pulse, or ends the pulse, which is the 40th or leaves
fewer than 40 bits (`endPulse_edge`). -/
theorem samplingEndsInThreeWays : Obligations.SamplingEndsInThreeWays := by
  intro s t hinv hst h
  obtain ⟨-, -, -, -, -, sampling, -⟩ := hinv
  obtain ⟨count, -⟩ := sampling hst
  obtain ⟨hr, rfl⟩ | ⟨hr, n, u, hn, hm, rfl⟩ := step_moves h
  · exact .inr (.inr (.inr (by simp [hr])))
  · have isSampling : n = .bitWaitRise ∨ n = .bitWaitFall := by
      rw [hn] at hst
      exact hst.imp (FsmState.code_inj (n := .bitWaitRise)).1 (FsmState.code_inj (n := .bitWaitFall)).1
    simp only [State.presentNext_st, State.presentNext_bitcnt, State.presentNext_outcome]
    cases hm with
    | waitPoll => exact .inl ⟨hst, count⟩
    | waitTimeout hL hl hw => exact .inr (.inr (.inl ⟨rfl, rfl, (timesOut_iff s).2 ⟨_, hn ▸ hL, hl, hw⟩⟩))
    | waitMatch hL hf =>
      obtain rfl := isSampling.resolve_right hf
      exact .inl ⟨.inr rfl, count⟩
    | bitEnd hl =>
      obtain ⟨he, hc⟩ | ⟨he, hc⟩ := endPulse_edge (s := s.clearDone) count
      · exact .inl ⟨.inl he, hc⟩
      · exact .inr (.inl ⟨he, hc, hn, bitcnt_eq_of_endPulse hc, hl⟩)
    | holdPoll hT | holdEnd hT =>
      obtain rfl | rfl := isSampling <;> cases hT
    | _ => obtain h | h := isSampling <;> cases h

/-- Settles O38: before sampling the invariant allows no bit, and during a call no reading; the timed out step
(`step_of_timesOut`) writes neither. -/
theorem handshakeTimeoutLeavesNothing : Obligations.HandshakeTimeoutLeavesNothing := by
  intro s hinv low high hr ht
  obtain ⟨-, -, ⟨inCall, -⟩, results, noBits, -⟩ := hinv
  obtain ⟨count, frame⟩ := noBits ⟨by omega, high⟩
  have notIdle : s.st ≠ FsmState.idle.code := fun h => by simp [h, FsmState.code] at low
  obtain ⟨noOutcome, -⟩ := inCall notIdle
  obtain ⟨hh, hs, hm⟩ := results (by simp [noOutcome])
  refine ⟨_, step_of_timesOut hr ht, ?_⟩
  simp [FsmState.code, count, frame, hh, hs, hm]

/-! ### Inputs that a row does not read -/

/-- IDLE, VALIDATE and CONVERT read no input. -/
theorem exec_withInp_of_untimed {i : Instr} (hi : i = .idle ∨ i = .validate ∨ i = .convert) {s u : State} (x : Inputs)
    (h : exec i s = .next u) : exec i (s.withInp x) = .next (u.withInp x) := by
  obtain rfl | rfl | rfl := hi <;> cases h
  · rfl
  · rw [apply_ite (State.withInp x)]
    rfl
  · rfl

/-- R51, R121: the rows of a state that awaits no level read the clock at most. -/
theorem exec_withInp_of_not_wait {n : FsmState} (hn : awaitedLevel n.code = none) {q : Bool} {s u : State} {x : Inputs}
    (hx : x.now = s.inp.now) (h : exec (n.row q) s = .next u) : exec (n.row q) (s.withInp x) = .next (u.withInp x) := by
  cases n
  case idle =>
    cases q
    · exact exec_withInp_of_untimed (.inl rfl) x h
    · cases h
      exact congrArg _ (State.enter_withInp (s := s.clearDone.clearCall) hx _)
  case validate => exact exec_withInp_of_untimed (.inr (.inl rfl)) x h
  case convert => exact exec_withInp_of_untimed (.inr (.inr rfl)) x h
  case startLow | startHigh =>
    cases h
    exact congrArg _ (State.hold_withInp (s := s.clearDone) hx _ _)
  all_goals cases hn

/-- The codes that await a level are 3 to 7. -/
theorem awaitedLevel_eq_none {c : StCode} (h : c.toNat < 3 ∨ 7 < c.toNat) : awaitedLevel c = none := by
  revert c
  decide

/-- Settles O46: outside the waits a row reads the clock at most (`exec_withInp_of_not_wait`), and a reset reads nothing. -/
theorem lineReadOnlyInWaits : Obligations.LineReadOnlyInWaits := by
  intro s v hs
  refine step_withInp (x := { s.inp with line := v }) rfl fun hr n u hn hu => ?_
  have notReset : ¬ s.inp.rst = true := ne_true_of_eq_false hr
  have noLevel : awaitedLevel s.st = none := awaitedLevel_eq_none (by tauto)
  exact exec_withInp_of_not_wait (hn ▸ noLevel) rfl hu

/-- Settles O47: VALIDATE, CONVERT and IDLE without a request are rows that read no input, and a reset reads nothing. -/
theorem clockReadOnlyWhereTimed : Obligations.ClockReadOnlyWhereTimed := by
  intro s c hs
  refine step_withInp (x := { s.inp with now := c }) rfl fun hr n u hn hu => ?_
  refine exec_withInp_of_untimed ?_ _ hu
  obtain hs | hs | ⟨hs, hq⟩ := hs
  · cases hr.symm.trans hs
  · rw [hn] at hs
    cases n <;> simp [FsmState.code] at hs
    · exact .inr (.inl rfl)
    · exact .inr (.inr rfl)
  · obtain rfl : n = .idle := FsmState.code_inj.1 (hn.symm.trans hs)
    rw [hq]
    exact .inl rfl

/-! ### The caller's view -/

/-- R186, R30: the sign and the magnitude spell the signed temperature. -/
theorem readingOf_outputs (s : State) :
    readingOf (outputs s) = ⟨(s.hum.toNat : Rat) / 10, ((outputs s).tempTenths.toInt : Rat) / 10⟩ := by
  have temp : (outputs s).tempTenths.toInt = _ := tempTenths_toInt s
  rw [temp]
  cases hs : s.tsign <;> simp [readingOf, outputs, hs]

/-- Settles O33: the outcome's code chooses the result, and the reading is `readingOf_outputs`. -/
theorem callerReadsDecodeOutcome : Obligations.CallerReadsDecodeOutcome := by
  intro s
  rw [← readingOf_outputs]
  refine ⟨fun h => ?_, fun h => ?_, fun h => ?_, fun h => ?_⟩ <;>
    simp [decodeOutcome, show (outputs s).outcome = s.outcome.code from rfl, h, CallOutcome.code]

end Sys2Proof.Safety

/-! SUPPORT. The decoder on encoded words, the step by the decoded row, and the fields of a frame as numbers. -/

namespace Sys2Proof

/-- R84: the word of an instruction decodes to it. -/
theorem decodeWord_encode (i : Instr) : decodeWord (encode i) = .ok i := by
  refine (rowAccepts_iff_decodeWord i _).1 ?_
  cases i <;> decide

/-- The byte form of a fetch word reads as the word (log 4). -/
theorem decodeTableWord_toNat {w : FetchWord} {i : Instr} (h : decodeWord w = .ok i) :
    decodeTableWord 8 w.toNat = some i := by
  have small : w.toNat < 2 ^ 8 ∧ w.toNat < 256 := by omega
  have unused : ∀ w : FetchWord, (w.setWidth 8).extractLsb' 6 2 = 0 := by decide
  have word : ∀ w : FetchWord, (w.setWidth 8).extractLsb' 0 6 = w := by decide
  simp [decodeTableWord, decodeBytes, small, unused w, word w, h]

/-- R84: the bits that decide the row are those of its encoding. -/
theorem and_mask_of_decodeWord {i : Instr} {w : FetchWord} (h : decodeWord w = .ok i) :
    w &&& (opcodeRow i).mask = encode i := by
  have accepted := (rowAccepts_iff_decodeWord i w).2 h
  rw [rowAccepts, Bool.and_eq_true, decide_eq_true_iff] at accepted
  exact accepted.1

/-- Settles O2: decoding inverts encoding (`decodeWord_encode`), on the byte form too (`decodeTableWord_toNat`), and a row
accepts the words that decode to it (`and_mask_of_decodeWord`). -/
theorem decodeOfEncodeIsIdentity : Obligations.DecodeOfEncodeIsIdentity :=
  ⟨fun i _ => ⟨decodeWord_encode i, decodeTableWord_toNat (decodeWord_encode i)⟩, fun _ _ => and_mask_of_decodeWord⟩

/-- Settles O3: each word is that of a state's code with its `req` (`decodeWord_code`), the last of a reserved code. -/
theorem writtenWordsDecode : Obligations.WrittenWordsDecode :=
  ⟨decodeWord_code false .idle, decodeWord_code true .idle, decodeWord_code false .startLow,
    decodeWord_code true .hsWaitHigh, decodeWord_code false .bitWaitFall, decodeWord_code false .validate,
    decodeWord_code true .convert, decodeWord_reserved false (c := 0b1010) (by decide)⟩

end Sys2Proof

namespace Sys2Proof.Machine

open Sys2Proof

/-- R100: a step performs the row its word decodes to, then the environment presents the next sample. -/
theorem step_of_decodeWord {s : State} {i : Instr} (h : decodeWord s.fetchWord = .ok i) :
    step s = presentAfter (exec i s) := by
  rw [step, h]

/-- R75, R76: two adjacent fields of the frame as one number, the earlier the more significant. -/
theorem toNat_append_byte {n : Nat} (hi : BitVec n) (lo : Byte) : (hi ++ lo).toNat = 256 * hi.toNat + lo.toNat := by
  rw [BitVec.toNat_append, ← Nat.shiftLeft_add_eq_or_of_lt lo.isLt, Nat.shiftLeft_eq, Nat.mul_comm]

end Sys2Proof.Machine

namespace Sys2Proof.Safety

open Sys2Proof Sys2Proof.Machine

/-- Settles O5: the step is the row's result with the next sample presented, which writes no field of the block. -/
theorem stepRunsDecodedInstruction : Obligations.StepRunsDecodedInstruction := by
  intro s i hi
  obtain ⟨t, ht⟩ := exec_next i s
  obtain ⟨-, pending, tick⟩ := exec_env ht
  have stepped : step s = .next t.presentNext := by
    rw [step_of_decodeWord hi, ht]
    rfl
  refine ⟨t, _, ht, stepped, by simp, by simp, by simp, by simp, by simp, by simp, by simp, by simp, by simp,
    fun x xs hp => ?_, fun hp => ?_⟩
  · rw [State.presentNext_cons (pending.trans hp)]
    exact ⟨rfl, rfl, tick⟩
  · rw [State.presentNext_nil (pending.trans hp), tick]
    exact ⟨rfl, pending.trans hp, rfl⟩

/-- Settles O6: a state's code runs its row (`step_row`), in IDLE by `req`, and a reserved code faults. -/
theorem dispatchByStateCode : Obligations.DispatchByStateCode := by
  intro s hr
  have row (n : FsmState) (hs : s.st = n.code) : step s = presentAfter (exec (n.row s.inp.req) s) := step_row hr hs
  refine ⟨fun hs hq => ?_, fun hs hq => ?_, row .startLow, row .startHigh, row .hsWaitLow1, row .hsWaitHigh,
    row .hsWaitLow2, row .bitWaitRise, row .bitWaitFall, row .validate, row .convert, step_reserved hr⟩
  · rw [row .idle hs, hq]
    rfl
  · rw [row .idle hs, hq]
    rfl

/-- Settles O8: the placed word is the fetch word of the state, it decodes to its instruction (`decodeWord_encode`), and its
`rst` bit is 0. -/
theorem placedWordRunsNext : Obligations.PlacedWordRunsNext := by
  intro s i
  have noReset : FetchWord.rstBit (encode i) = false := by cases i <;> rfl
  have placed : BitVec.ofNat 6 (encode i).toNat = encode i := by simp
  refine ⟨step_of_decodeWord ?_, FetchWord.stBits (encode i), FetchWord.reqBit (encode i), ?_⟩
  · rw [State.withFetchWord, State.placeWord_fetchWord, placed, decodeWord_encode]
  · simp only [State.withFetchWord, State.placeWord, placed, noReset]

/-- Settles O27: each field is one byte after another (`toNat_append_byte`), and the sign is the top bit of byte 2. -/
theorem frameFieldsBigEndian : Obligations.FrameFieldsBigEndian := by
  intro f
  refine ⟨?_, ?_, ?_⟩
  · rw [humValue, toNat_append_byte, frameByte_toNat, frameByte_toNat]
  · have top : tsignValue f = (frameByte f 2).msb := rfl
    rw [top, BitVec.msb_eq_decide, decide_eq_true_iff, frameByte_toNat]
  · rw [tmagValue, toNat_append_byte, frameByte_toNat, BitVec.extractLsb'_toNat, frameByte_toNat]
    rfl

/-- Settles O32: every port is a function of the register named, and the update touches none of those registers. -/
theorem portsShowOnlyTheirRegisters : Obligations.PortsShowOnlyTheirRegisters := by
  intro s
  refine ⟨outputs_lineOe s, outputs_lineOut s, rfl, rfl, rfl, rfl, rfl, rfl, rfl, fun m f n x xs k => ?_⟩
  rfl

end Sys2Proof.Safety

/-! SUPPORT. Runs over given samples: what a number of steps reaches, and the samples that leave a block where it is. -/

namespace Sys2Proof.Safety

open Sys2Proof Sys2Proof.Machine

/-! ### Samples -/

/-- The coming steps read the samples `xs`, and the ones after them read any. -/
def Supplies (xs : List Inputs) (s : State) : Prop := xs ≠ [] → s.inp :: s.pending = xs

section
variable {s t : State} {x : Inputs} {xs : List Inputs}

theorem Supplies.inp_eq (h : Supplies (x :: xs) s) : s.inp = x :=
  List.head_eq_of_cons_eq (h (List.cons_ne_nil x xs))

theorem Supplies.congr (h : Supplies xs s) (hi : t.inp = s.inp) (hp : t.pending = s.pending) : Supplies xs t := by
  rwa [Supplies, hi, hp]

/-- The environment presents the sample after the first (R6). -/
theorem Supplies.presentNext (h : Supplies (x :: xs) s) : Supplies xs s.presentNext := by
  intro hxs
  have pending : s.pending = xs := List.tail_eq_of_cons_eq (h (List.cons_ne_nil x xs))
  obtain ⟨y, ys, rfl⟩ := List.exists_cons_of_ne_nil hxs
  rw [State.presentNext_cons pending]

/-- A step uses up one sample. -/
theorem Supplies.step (h : Supplies (x :: xs) s) (hs : step s = .next t) : Supplies xs t := by
  obtain ⟨-, rfl⟩ | ⟨-, n, u, -, hu, rfl⟩ := step_cases hs
  · exact Supplies.presentNext (h.congr rfl rfl)
  · obtain ⟨inp, pending, -⟩ := exec_env hu
    exact Supplies.presentNext (h.congr inp pending)

end

/-! ### What a run reaches -/

/-- The run of `k` steps from `s` ends in a state with the property `P`. -/
def Reaches (k : Nat) (P : State → Prop) (s : State) : Prop := ∃ t, runFor k s = .next t ∧ P t

section
variable {s t : State} {P Q : State → Prop} {j k : Nat}

theorem Reaches.zero (h : P s) : Reaches 0 P s := ⟨s, rfl, h⟩

theorem Reaches.step (h : step s = .next t) (ht : Reaches k P t) : Reaches (k + 1) P s := by
  rwa [Reaches, runFor_succ h]

theorem Reaches.one (h : Machine.step s = .next t) (ht : P t) : Reaches 1 P s := .step h (.zero ht)

/-- Runs compose. -/
theorem Reaches.trans (h : Reaches j P s) (hPQ : ∀ t, P t → Reaches k Q t) : Reaches (j + k) Q s := by
  induction j generalizing s with
  | zero =>
    obtain ⟨t, ht, hP⟩ := h
    cases ht
    rw [Nat.zero_add]
    exact hPQ s hP
  | succ j ih =>
    obtain ⟨u, hu⟩ | ⟨-, -, hf⟩ := step_next_or_reserved s
    · rw [Nat.add_right_comm]
      rw [Reaches, runFor_succ hu] at h
      exact .step hu (ih h)
    · obtain ⟨t, ht, -⟩ := h
      cases (runFor_succ_fault hf).symm.trans ht

theorem Reaches.imp (h : Reaches k P s) (hPQ : ∀ t, P t → Q t) : Reaches k Q s := by
  obtain ⟨t, ht, hP⟩ := h
  exact ⟨t, ht, hPQ t hP⟩

end

/-! ### Steps that leave the block where it is -/

/-- All registers but `done` agree. -/
structure SameCall (s t : State) : Prop where
  st : t.st = s.st
  tMark : t.tMark = s.tMark
  frame : t.frame = s.frame
  bitcnt : t.bitcnt = s.bitcnt
  outcome : t.outcome = s.outcome
  hum : t.hum = s.hum
  tsign : t.tsign = s.tsign
  tmag : t.tmag = s.tmag

theorem SameCall.refl (s : State) : SameCall s s := ⟨rfl, rfl, rfl, rfl, rfl, rfl, rfl, rfl⟩

theorem SameCall.trans {s t u : State} (h : SameCall s t) (h' : SameCall t u) : SameCall s u :=
  ⟨h'.st.trans h.st, h'.tMark.trans h.tMark, h'.frame.trans h.frame, h'.bitcnt.trans h.bitcnt,
    h'.outcome.trans h.outcome, h'.hum.trans h.hum, h'.tsign.trans h.tsign, h'.tmag.trans h.tmag⟩

theorem sameCall_clearDone_presentNext (s : State) : SameCall s s.clearDone.presentNext := by
  constructor <;> simp

/-- Samples under which every step writes `done <- 0` alone leave all other registers as they are. -/
theorem reaches_sameCall {s : State} {xs rest : List Inputs} (hs : Supplies (xs ++ rest) s)
    (hstay : ∀ u, SameCall s u → u.inp ∈ xs → step u = .next u.clearDone.presentNext) :
    Reaches xs.length (fun t => SameCall s t ∧ t.done = (s.done && xs.isEmpty) ∧ Supplies rest t) s := by
  induction xs generalizing s with
  | nil => exact .zero ⟨.refl s, by simp, hs⟩
  | cons x xs ih =>
    have stepped : step s = .next s.clearDone.presentNext := hstay s (.refl s) (by simp [hs.inp_eq])
    have same := sameCall_clearDone_presentNext s
    refine .step stepped ((ih (hs.step stepped) fun u hu hx => ?_).imp fun t ⟨ht, hd, hr⟩ => ?_)
    · exact hstay u (same.trans hu) (List.mem_cons_of_mem x hx)
    · exact ⟨same.trans ht, by simp [hd], hr⟩

/-- R102: a step in IDLE without a request. -/
theorem step_idleHold {s : State} (hs : s.st = FsmState.idle.code) (hr : s.inp.rst = false) (hq : s.inp.req = false) :
    step s = .next s.clearDone.presentNext := by
  rw [step_row hr hs, hq]
  rfl

/-- R120, R121, R151: the sample lets state `n`, entered at `mark`, go on waiting. -/
def Polls (n : FsmState) (mark : U32) (x : Inputs) : Prop :=
  x.rst = false ∧
    ((∃ T, n.holdTime = some T ∧ (x.now - mark).toNat < T) ∨
      ∃ L, awaitedLevel n.code = some L ∧ x.line ≠ L ∧ (x.now - mark).toNat ≤ 100)

/-- R120, R121, R151: a step that neither goes on nor times out. -/
theorem step_of_polls {s : State} {n : FsmState} (hn : s.st = n.code) (h : Polls n s.tMark s.inp) :
    step s = .next s.clearDone.presentNext := by
  obtain ⟨hr, ⟨T, hT, hw⟩ | ⟨L, hL, hl, hw⟩⟩ := h
  · rw [step_row hr hn, exec_row_of_holdTime hT, State.hold_poll (s := s.clearDone) hw]
    rfl
  · obtain ⟨f, hf⟩ := exec_row_awaitLevel hL s.inp.req s
    rw [step_row hr hn, hf, State.awaitLevel_poll (s := s.clearDone) hl hw]
    rfl

/-- Settles O51: without reset and request a step in IDLE clears `done` alone (`step_idleHold`). -/
theorem resultHeldWhileIdle : Obligations.ResultHeldWhileIdle := by
  intro s xs rest hs hx hquiet
  obtain ⟨t, ht, same, hd, -⟩ := reaches_sameCall (xs := xs) (rest := rest) (fun _ => hx) fun u hu hi => by
    obtain ⟨hr, hq⟩ := hquiet _ hi
    exact step_idleHold (hu.st.trans hs) hr hq
  refine ⟨t, ht, same.st.trans hs, same.outcome, same.hum, same.tsign, same.tmag, same.frame, same.bitcnt, same.tMark,
    fun hne => ?_⟩
  cases xs with
  | nil => exact absurd rfl hne
  | cons x xs => simpa using hd

/-- Settles O52: with the clock stopped every sample lets the hold or wait go on (`step_of_polls`). -/
theorem stoppedClockHangs : Obligations.StoppedClockHangs := by
  intro s c xs rest hx hclock hwait
  have polls : ∃ n, s.st = FsmState.code n ∧ ∀ x ∈ xs, Polls n s.tMark x := by
    obtain ⟨L, hL, hl, hw⟩ | ⟨hs, hw⟩ | ⟨hs, hw⟩ := hwait
    · obtain ⟨n, hn⟩ := eq_code_of_awaitedLevel hL
      refine ⟨n, hn, fun x hxs => ?_⟩
      obtain ⟨hr, rfl⟩ := hclock x hxs
      exact ⟨hr, .inr ⟨L, hn ▸ hL, hl x hxs, hw⟩⟩
    · refine ⟨.startLow, hs, fun x hxs => ?_⟩
      obtain ⟨hr, rfl⟩ := hclock x hxs
      exact ⟨hr, .inl ⟨_, rfl, hw⟩⟩
    · refine ⟨.startHigh, hs, fun x hxs => ?_⟩
      obtain ⟨hr, rfl⟩ := hclock x hxs
      exact ⟨hr, .inl ⟨_, rfl, hw⟩⟩
  obtain ⟨n, hn, hpoll⟩ := polls
  obtain ⟨t, ht, same, -⟩ := reaches_sameCall (xs := xs) (rest := rest) (fun _ => hx) fun u hu hi =>
    step_of_polls (hu.st.trans hn) (hu.tMark ▸ hpoll _ hi)
  exact ⟨t, ht, same.st, same.tMark, same.frame, same.bitcnt, same.outcome⟩

end Sys2Proof.Safety

/-! SUPPORT. A call in progress, one leg after another, and a whole exchange. -/

namespace Sys2Proof.Safety

open Sys2Proof Sys2Proof.Machine

/-- The block is in state `n` of a call, entered at `mark`, with the frame `f` of `c` bits, and the samples `xs` come. -/
structure CallAt (n : FsmState) (mark : U32) (f : FrameWord) (c : BitVec 6) (xs : List Inputs) (s : State) : Prop where
  st : s.st = n.code
  tMark : s.tMark = mark
  frame : s.frame = f
  bitcnt : s.bitcnt = c
  samples : Supplies xs s
  inv : Inv s

/-- R101: after the step of a DECODE the call is at its start. -/
theorem reaches_startCall {s : State} {xs : List Inputs} (hs : s.st = FsmState.idle.code) (hr : s.inp.rst = false)
    (hq : s.inp.req = true) (hx : s.pending = xs) : Reaches 1 (CallAt .startLow s.inp.now 0 0 xs) s := by
  have stepped := step_startCall hs hr hq
  have samples : Supplies (s.inp :: xs) s := fun _ => by rw [hx]
  refine .one stepped ⟨by simp, by simp, by simp, by simp, samples.step stepped, inv_presentNext.2 (inv_startCall s)⟩

section
variable {n : FsmState} {mark : U32} {f : FrameWord} {c : BitVec 6} {x : Inputs} {xs rest : List Inputs} {s : State}

/-- What a row's result is, the block is after the step. -/
theorem CallAt.reaches_of_exec (h : CallAt n mark f c (x :: rest) s) (hr : x.rst = false) {u : State}
    (hu : exec (n.row s.inp.req) s = .next u) :
    Reaches 1 (fun t => t = u.presentNext ∧ Inv t ∧ Supplies rest t) s := by
  have stepped : step s = .next u.presentNext := by
    rw [step_row (h.samples.inp_eq ▸ hr) h.st, hu]
    rfl
  exact .one stepped ⟨rfl, stepKeepsInv s _ h.inv stepped, h.samples.step stepped⟩

/-- Samples that let the state go on waiting leave the call where it is. -/
theorem CallAt.polls (h : CallAt n mark f c (xs ++ rest) s) (hx : ∀ x ∈ xs, Polls n mark x) :
    Reaches xs.length (CallAt n mark f c rest) s := by
  obtain ⟨t, ht, same, -, samples⟩ := reaches_sameCall h.samples fun u hu hi =>
    step_of_polls (hu.st.trans h.st) (by rw [hu.tMark, h.tMark]; exact hx _ hi)
  exact ⟨t, ht, same.st.trans h.st, same.tMark.trans h.tMark, same.frame.trans h.frame, same.bitcnt.trans h.bitcnt,
    samples, runFor_induction (fun hi => stepKeepsInv _ _ hi) h.inv ht⟩

/-- A row that goes on to the state's successor. -/
theorem CallAt.goesOn (h : CallAt n mark f c (x :: rest) s) (hr : x.rst = false)
    (hu : exec (n.row s.inp.req) s = .next (s.clearDone.enter n.succ)) :
    Reaches 1 (CallAt n.succ x.now f c rest) s := by
  refine (h.reaches_of_exec hr hu).imp ?_
  rintro t ⟨rfl, hinv, samples⟩
  exact ⟨by simp, by simp [h.samples.inp_eq], by simp [h.frame], by simp [h.bitcnt], samples, hinv⟩

/-- R121: a hold whose time has passed goes on. -/
theorem CallAt.holdEnd {T : Nat} (h : CallAt n mark f c (x :: rest) s) (hn : n.holdTime = some T) (hr : x.rst = false)
    (hw : T ≤ (x.now - mark).toNat) : Reaches 1 (CallAt n.succ x.now f c rest) s := by
  have passed : T ≤ waited s := by rwa [waited, h.samples.inp_eq, h.tMark]
  obtain ⟨onEnd, -, -⟩ := holdState_result hn s
  exact h.goesOn hr (onEnd passed)

/-- R120: a wait other than BIT_WAIT_FALL that sees its level goes on. -/
theorem CallAt.waitMatch {L : Bool} (h : CallAt n mark f c (x :: rest) s) (hn : awaitedLevel n.code = some L)
    (hf : n ≠ .bitWaitFall) (hr : x.rst = false) (hl : x.line = L) : Reaches 1 (CallAt n.succ x.now f c rest) s := by
  obtain ⟨onMatch, -⟩ := waitState_result hn hf s
  exact h.goesOn hr (onMatch (h.samples.inp_eq ▸ hl))

end

/-! ### Legs -/

section
variable {n : FsmState} {mark : U32} {f : FrameWord} {c : BitVec 6} {g : Leg} {rest : List Inputs} {s : State}

theorem Leg.length_samples (g : Leg) : g.samples.length = g.polls.length + 1 := by
  simp [Leg.samples]

/-- What a leg through a hold asks of its samples (R121). -/
theorem Leg.holds_iff {T : Nat} :
    g.holds T mark = true ↔ (∀ x ∈ g.polls, x.rst = false ∧ (x.now - mark).toNat < T) ∧ g.last.rst = false ∧
      T ≤ (g.last.now - mark).toNat := by
  simp [Leg.holds, Leg.samples, forall_and]
  tauto

/-- What a leg through a wait asks of its samples (R120). -/
theorem Leg.waits_iff {L : Bool} :
    g.waits L mark = true ↔ (∀ x ∈ g.polls, x.rst = false ∧ x.line ≠ L ∧ (x.now - mark).toNat ≤ 100) ∧
      g.last.rst = false ∧ g.last.line = L := by
  simp [Leg.waits, Leg.samples, forall_and]
  tauto

/-- The polls of a leg leave its last sample to come. -/
theorem CallAt.leg {P : State → Prop} (h : CallAt n mark f c (g.samples ++ rest) s)
    (hpoll : ∀ x ∈ g.polls, Polls n mark x) (hlast : ∀ t, CallAt n mark f c (g.last :: rest) t → Reaches 1 P t) :
    Reaches g.samples.length P s := by
  rw [Leg.samples, List.append_assoc] at h
  rw [Leg.length_samples]
  exact (h.polls hpoll).trans hlast

theorem CallAt.holdLeg {T : Nat} (h : CallAt n mark f c (g.samples ++ rest) s) (hn : n.holdTime = some T)
    (hg : g.holds T mark = true) : Reaches g.samples.length (CallAt n.succ g.last.now f c rest) s := by
  obtain ⟨hpoll, hr, hw⟩ := Leg.holds_iff.1 hg
  exact h.leg (fun x hx => ⟨(hpoll x hx).1, .inl ⟨T, hn, (hpoll x hx).2⟩⟩) fun t ht => ht.holdEnd hn hr hw

/-- The polls of a leg that waits let the state go on waiting. -/
theorem Leg.polls_of_waits {L : Bool} (hn : awaitedLevel n.code = some L) (hg : g.waits L mark = true) :
    ∀ x ∈ g.polls, Polls n mark x := by
  obtain ⟨hpoll, -⟩ := Leg.waits_iff.1 hg
  exact fun x hx => ⟨(hpoll x hx).1, .inr ⟨L, hn, (hpoll x hx).2⟩⟩

theorem CallAt.waitLeg {L : Bool} (h : CallAt n mark f c (g.samples ++ rest) s) (hn : awaitedLevel n.code = some L)
    (hf : n ≠ .bitWaitFall) (hg : g.waits L mark = true) :
    Reaches g.samples.length (CallAt n.succ g.last.now f c rest) s := by
  obtain ⟨-, hr, hl⟩ := Leg.waits_iff.1 hg
  exact h.leg (Leg.polls_of_waits hn hg) fun t ht => ht.waitMatch hn hf hr hl

end

/-! ### Bits -/

/-- R155: the state after the `c`-th bit. -/
def afterBits (c : BitVec 6) : FsmState := if c.toNat = 40 then .validate else .bitWaitRise

section
variable {mark : U32} {f : FrameWord} {c : BitVec 6} {rest : List Inputs} {s : State}

/-- R151: the fall ends the pulse and stores its bit. -/
theorem CallAt.bitEnd {x : Inputs} (h : CallAt .bitWaitFall mark f c (x :: rest) s) (hr : x.rst = false)
    (hl : x.line = false) :
    Reaches 1 (CallAt (afterBits (c + 1)) x.now (shiftIn f (bitval (x.now - mark))) (c + 1) rest) s := by
  have ended : exec (FsmState.bitWaitFall.row s.inp.req) s = .next s.clearDone.endPulse :=
    congrArg _ (State.awaitLevel_match (s := s.clearDone) (h.samples.inp_eq ▸ hl) State.endPulse)
  refine (h.reaches_of_exec hr ended).imp ?_
  rintro t ⟨rfl, hinv, samples⟩
  refine ⟨?_, ?_, ?_, ?_, samples, hinv⟩ <;>
    simp [State.endPulse_eq, afterBits, h.samples.inp_eq, h.frame, h.bitcnt, h.tMark]

/-- R150, R151: a pulse stores its bit. -/
theorem CallAt.pulse {p : Pulse} (h : CallAt .bitWaitRise mark f c (p.samples ++ rest) s)
    (hrise : p.rise.waits true mark = true) (hfall : p.fall.waits false p.rise.last.now = true) :
    Reaches p.samples.length (CallAt (afterBits (c + 1)) p.fall.last.now (shiftIn f p.bit) (c + 1) rest) s := by
  rw [Pulse.samples, List.append_assoc] at h
  rw [Pulse.samples, List.length_append]
  refine (h.waitLeg rfl (by decide) hrise).trans fun t ht => ?_
  obtain ⟨-, hr, hl⟩ := Leg.waits_iff.1 hfall
  exact ht.leg (Leg.polls_of_waits rfl hfall) fun u hu => hu.bitEnd hr hl

/-- R151, R155: the pulses that are missing to 40 bits lead to VALIDATE with their bits shifted in. -/
theorem CallAt.pulses {ps : List Pulse} (h : CallAt (afterBits c) mark f c (ps.flatMap Pulse.samples ++ rest) s)
    (hps : pulsesMatch mark ps = true) (hc : c.toNat + ps.length = 40) :
    Reaches (ps.flatMap Pulse.samples).length
      (fun t => ∃ last, CallAt .validate last ((ps.map Pulse.bit).foldl shiftIn f) 40 rest t) s := by
  induction ps generalizing mark f c s with
  | nil =>
    obtain rfl : c = 40 := BitVec.eq_of_toNat_eq hc
    exact .zero ⟨mark, h⟩
  | cons p ps ih =>
    rw [List.length_cons] at hc
    have next : afterBits c = .bitWaitRise := if_neg (by omega)
    have count : (c + 1).toNat = c.toNat + 1 := by bv_omega
    simp only [pulsesMatch, Bool.and_eq_true] at hps
    obtain ⟨⟨hrise, hfall⟩, hps⟩ := hps
    rw [next, List.flatMap_cons, List.append_assoc] at h
    rw [List.flatMap_cons, List.length_append]
    exact (h.pulse hrise hfall).trans fun t ht => ih ht hps (by omega)

end

/-! ### Validation and conversion -/

section
variable {mark : U32} {f : FrameWord} {c : BitVec 6} {x : Inputs} {rest : List Inputs} {s : State}

/-- R181 on a match. -/
theorem CallAt.validated (h : CallAt .validate mark f c (x :: rest) s) (hr : x.rst = false)
    (hf : checksumOk f = true) : Reaches 1 (CallAt .convert mark f c rest) s := by
  refine (h.reaches_of_exec hr (exec_validate_match (h.frame ▸ hf))).imp ?_
  rintro t ⟨rfl, hinv, samples⟩
  exact ⟨by simp, by simp [h.tMark], by simp [h.frame], by simp [h.bitcnt], samples, hinv⟩

/-- R181 on a mismatch, with the results of the call at 0. -/
theorem CallAt.rejected (h : CallAt .validate mark f c (x :: rest) s) (hr : x.rst = false)
    (hf : checksumOk f ≠ true) :
    Reaches 1 (fun t => t.st = 0b0000 ∧ t.done = true ∧ t.outcome = .checksum ∧ t.hum = 0 ∧ t.tsign = false ∧
      t.tmag = 0) s := by
  obtain ⟨clear, -⟩ := (inv_iff_inCall h.st nofun).1 h.inv
  refine (h.reaches_of_exec hr (exec_validate_mismatch (h.frame ▸ hf))).imp ?_
  rintro t ⟨rfl, -⟩
  simp [FsmState.code, clear.hum, clear.tsign, clear.tmag]

/-- R182: the reading of the frame is published. -/
theorem CallAt.converted (h : CallAt .convert mark f c (x :: rest) s) (hr : x.rst = false) :
    Reaches 1 (fun t => t.st = 0b0000 ∧ t.done = true ∧ t.outcome = .ok ∧ t.frame = f ∧ t.hum = humValue f ∧
      t.tsign = tsignValue f ∧ t.tmag = tmagValue f) s := by
  refine (h.reaches_of_exec hr (u := s.clearDone.publish.finish .ok) rfl).imp ?_
  rintro t ⟨rfl, -⟩
  simp [FsmState.code, h.frame]

end

/-! ### The whole exchange -/

/-- An exchange that completes after a DECODE leads to VALIDATE with its bits shifted in. -/
theorem reaches_validate {s : State} {e : Exchange} {rest : List Inputs} (hs : s.st = FsmState.idle.code)
    (hr : s.inp.rst = false) (hq : s.inp.req = true) (he : e.completes s.inp.now = true)
    (hp : s.pending = e.samples ++ rest) :
    Reaches (e.samples.length + 1)
      (fun t => ∃ last, CallAt .validate last ((e.pulses.map Pulse.bit).foldl shiftIn 0) 40 rest t) s := by
  simp only [Exchange.completes, Bool.and_eq_true, decide_eq_true_iff] at he
  obtain ⟨⟨⟨⟨⟨⟨low, high⟩, ackLow⟩, ackHigh⟩, ready⟩, pulses⟩, forty⟩ := he
  simp only [Exchange.samples, List.append_assoc] at hp
  have atLow1 := ((reaches_startCall hs hr hq hp).trans fun t ht => ht.holdLeg rfl low).trans
    fun t ht => ht.holdLeg rfl high
  have atRise := ((atLow1.trans fun t ht => ht.waitLeg rfl (by decide) ackLow).trans
    fun t ht => ht.waitLeg rfl (by decide) ackHigh).trans fun t ht => ht.waitLeg rfl (by decide) ready
  have atValidate := atRise.trans fun t ht => ht.pulses (c := 0) pulses (by simp [forty])
  convert atValidate using 1
  simp only [Exchange.samples, List.length_append]
  omega

/-- R54: bits shifted into an empty place of the frame spell a number there. -/
theorem toNat_foldl_shiftIn {bits : List Bool} {f : FrameWord} {k : Nat} (hf : f.toNat < 2 ^ k)
    (hk : k + bits.length ≤ 40) :
    (bits.foldl shiftIn f).toNat = bits.foldl (fun n b => 2 * n + b.toNat) f.toNat := by
  induction bits generalizing f k with
  | nil => rfl
  | cons b bs ih =>
    rw [List.length_cons] at hk
    have fits : 2 * f.toNat + b.toNat < 2 ^ (k + 1) := by
      have := Bool.toNat_le b
      rw [Nat.pow_succ]
      omega
    have shifted : (shiftIn f b).toNat = 2 * f.toNat + b.toNat := by
      rw [toNat_shiftIn, Nat.mod_eq_of_lt (fits.trans_le (Nat.pow_le_pow_right (by decide) (by omega)))]
    rw [List.foldl_cons, ih (k := k + 1) (shifted ▸ fits) (by omega), shifted, List.foldl_cons]

/-- The frame received is the number the exchange carries. -/
theorem toNat_foldl_bits {e : Exchange} (h : e.pulses.length = 40) :
    ((e.pulses.map Pulse.bit).foldl shiftIn 0).toNat = e.frameNat :=
  toNat_foldl_shiftIn (k := 0) (by decide) (by simp [h])

/-- Settles O55: the exchange leads to VALIDATE with its 40 bits as the frame (`reaches_validate`), which the checksum sends
to CONVERT or rejects. -/
theorem exchangeDeliversItsFrame : Obligations.ExchangeDeliversItsFrame := by
  intro s e v w rest hs hr hq he hv hw hp
  have atValidate := reaches_validate hs hr hq he hp
  simp only [Exchange.completes, Bool.and_eq_true, decide_eq_true_iff] at he
  obtain ⟨-, forty⟩ := he
  have frame := toNat_foldl_bits forty
  generalize (e.pulses.map Pulse.bit).foldl shiftIn 0 = f at atValidate frame
  rw [← frame, ne_eq, ← checksumOk_iff]
  refine ⟨fun valid => ?_, fun invalid => ?_⟩
  · have ended := atValidate.trans fun t ⟨_, ht⟩ => (ht.validated hv valid).trans fun u hu => hu.converted hw
    refine ended.imp ?_
    rintro t ⟨hst, hd, ho, rfl, hh, hs, hm⟩
    obtain ⟨hum, sign, mag⟩ := frameFieldsBigEndian t.frame
    exact ⟨hst, hd, ho, rfl, hh ▸ hum, hs ▸ Bool.eq_iff_iff.2 (by simpa using sign), hm ▸ mag⟩
  · exact atValidate.trans fun t ⟨_, ht⟩ => ht.rejected hv invalid

end Sys2Proof.Safety

/-! SUPPORT. A call at one step per microsecond: the start signal, and a line that stays high. -/

namespace Sys2Proof.Safety

open Sys2Proof Sys2Proof.Machine

/-- Sample `i` of a unit clock reads instant `t + i`, and one of the given levels. -/
theorem mem_unitSamples {t : U32} {ls : List (Bool × Bool)} {x : Inputs} (h : x ∈ unitSamples t ls) :
    x.rst = false ∧ (∃ l ∈ ls, x.line = l.1) ∧ ∃ i, 1 ≤ i ∧ i ≤ ls.length ∧ x.now = t + BitVec.ofNat 32 i := by
  induction ls generalizing t with
  | nil => cases h
  | cons l ls ih =>
    obtain rfl | h := List.mem_cons.1 h
    · exact ⟨rfl, ⟨l, List.mem_cons_self, rfl⟩, 1, le_rfl, by simp, rfl⟩
    · obtain ⟨hr, ⟨l', hl', line⟩, i, low, high, now⟩ := ih h
      refine ⟨hr, ⟨l', List.mem_cons_of_mem l hl', line⟩, i + 1, by omega, by simpa using high, ?_⟩
      rw [now, BitVec.ofNat_add, add_assoc, add_comm (BitVec.ofNat 32 i)]
      rfl

theorem unitSamples_append (t : U32) (ls ls' : List (Bool × Bool)) :
    unitSamples t (ls ++ ls') = unitSamples t ls ++ unitSamples (t + BitVec.ofNat 32 ls.length) ls' := by
  induction ls generalizing t with
  | nil => simp [unitSamples]
  | cons l ls ih =>
    have start : t + BitVec.ofNat 32 (l :: ls).length = t + 1 + BitVec.ofNat 32 ls.length := by
      rw [List.length_cons, BitVec.ofNat_add, add_assoc, add_comm (BitVec.ofNat 32 ls.length)]
      rfl
    rw [List.cons_append, unitSamples, unitSamples, ih, start, List.cons_append]

section
variable {n : FsmState} {mark : U32} {f : FrameWord} {c : BitVec 6} {ls : List (Bool × Bool)} {s : State} {k : Nat}

/-- `k` samples of a unit clock that starts at the mark, when the state goes on waiting for all of them. -/
theorem CallAt.unitPolls (h : CallAt n mark f c (unitSamples mark ls) s) (hk : k ≤ ls.length)
    (hsmall : k < 2 ^ 32)
    (hpoll : ∀ x : Inputs, x.rst = false → (∃ l ∈ ls, x.line = l.1) → (x.now - mark).toNat ≤ k → Polls n mark x) :
    Reaches k (CallAt n mark f c (unitSamples (mark + BitVec.ofNat 32 k) (ls.drop k))) s := by
  have length : (ls.take k).length = k := List.length_take_of_le hk
  rw [← List.take_append_drop k ls, unitSamples_append, length] at h
  have polled := h.polls fun x hx => by
    obtain ⟨hr, ⟨l, hl, line⟩, i, -, hi, now⟩ := mem_unitSamples hx
    obtain ⟨-, elapsed, -⟩ := pulseDurationAndBit
    have since : (x.now - mark).toNat = i := now ▸ elapsed mark i (by omega)
    exact hpoll x hr ⟨l, List.mem_of_mem_take hl, line⟩ (by omega)
  rwa [unitSamples_length, length] at polled

/-- The sample that comes next, of a unit clock that has read `k` instants. -/
theorem unitSamples_drop (hk : k < ls.length) :
    unitSamples (mark + BitVec.ofNat 32 k) (ls.drop k) =
      { rst := false, req := ls[k].2, line := ls[k].1, now := mark + BitVec.ofNat 32 (k + 1) } ::
        unitSamples (mark + BitVec.ofNat 32 (k + 1)) (ls.drop (k + 1)) := by
  have next : mark + BitVec.ofNat 32 (k + 1) = mark + BitVec.ofNat 32 k + 1 := by
    rw [BitVec.ofNat_add, add_assoc]
    rfl
  rw [List.drop_eq_getElem_cons hk, unitSamples, next]

/-- R121: before its time a hold goes on. -/
theorem CallAt.unitHold {T : Nat} (h : CallAt n mark f c (unitSamples mark ls) s) (hn : n.holdTime = some T)
    (hT : T < 2 ^ 32) (hkT : k < T) (hk : k ≤ ls.length) :
    Reaches k (CallAt n mark f c (unitSamples (mark + BitVec.ofNat 32 k) (ls.drop k))) s :=
  h.unitPolls hk (by omega) fun _ hr _ hw => ⟨hr, .inl ⟨T, hn, by omega⟩⟩

/-- R121: a hold lasts `T` steps exactly, and the next state's mark starts the clock anew. -/
theorem CallAt.unitHoldEnd (h : CallAt n mark f c (unitSamples mark ls) s) (hn : n.holdTime = some (k + 1))
    (hk : k + 1 < 2 ^ 32) (hlen : k < ls.length) :
    Reaches (k + 1) (CallAt n.succ (mark + BitVec.ofNat 32 (k + 1)) f c
      (unitSamples (mark + BitVec.ofNat 32 (k + 1)) (ls.drop (k + 1)))) s := by
  obtain ⟨-, elapsed, -⟩ := pulseDurationAndBit
  refine (h.unitHold hn hk (Nat.lt_succ_self k) hlen.le).trans fun t ht => ?_
  rw [unitSamples_drop hlen] at ht
  exact ht.holdEnd hn rfl (elapsed mark (k + 1) hk).ge

/-- R120: before its timeout a wait whose level does not come goes on. -/
theorem CallAt.unitWait {L : Bool} (h : CallAt n mark f c (unitSamples mark ls) s)
    (hn : awaitedLevel n.code = some L) (hl : ∀ l ∈ ls, l.1 ≠ L) (hk : k ≤ 100) (hlen : k ≤ ls.length) :
    Reaches k (CallAt n mark f c (unitSamples (mark + BitVec.ofNat 32 k) (ls.drop k))) s := by
  refine h.unitPolls hlen (by omega) fun x hr ⟨l, hmem, line⟩ hw => ?_
  exact ⟨hr, .inr ⟨L, hn, line ▸ hl l hmem, by omega⟩⟩

/-- R120, R201: a wait whose level never comes times out with the 101st step. -/
theorem CallAt.unitTimeout {L : Bool} (h : CallAt n mark f c (unitSamples mark ls) s)
    (hn : awaitedLevel n.code = some L) (hl : ∀ l ∈ ls, l.1 ≠ L) (hlen : 100 < ls.length) :
    Reaches 101 (fun t => t.st = 0b0000 ∧ t.done = true ∧ t.outcome = .timeout ∧ t.bitcnt = c ∧ t.frame = f ∧
      t.hum = 0 ∧ t.tsign = false ∧ t.tmag = 0 ∧ t.tMark = mark) s := by
  obtain ⟨-, elapsed, -⟩ := pulseDurationAndBit
  refine (h.unitWait hn hl le_rfl hlen.le).trans (k := 1) fun t ht => ?_
  rw [unitSamples_drop hlen] at ht
  have inp := ht.samples.inp_eq
  have timedOut : timesOut t = true := by
    refine (timesOut_iff t).2 ⟨L, ht.st ▸ hn, ?_, ?_⟩
    · rw [inp]
      exact hl _ (List.getElem_mem _)
    · have since : waited t = 101 := by rw [waited, inp, ht.tMark]; exact elapsed mark 101 (by decide)
      omega
  obtain ⟨clear, -⟩ := (inv_iff_inCall ht.st (ne_idle_of_awaitedLevel hn)).1 ht.inv
  refine .one (step_of_timesOut (by rw [inp]) timedOut) ?_
  simp [FsmState.code, ht.bitcnt, ht.frame, ht.tMark, clear.hum, clear.tsign, clear.tmag]

end

/-! ### The call from its DECODE -/

/-- The block in state `n` of a unit call that `s` starts, entered `m` microseconds after the DECODE, with no bit yet. -/
abbrev UnitCallAt (s : State) (ls : List (Bool × Bool)) (n : FsmState) (m : Nat) : State → Prop :=
  CallAt n (s.inp.now + BitVec.ofNat 32 m) 0 0 (unitSamples (s.inp.now + BitVec.ofNat 32 m) (ls.drop m))

section
variable {s : State} {levels : List (Bool × Bool)} (hs : s.st = FsmState.idle.code) (hr : s.inp.rst = false)
  (hq : s.inp.req = true) (hp : s.pending = unitSamples s.inp.now levels)
include hs hr hq hp

theorem reaches_unit_startLow : Reaches 1 (UnitCallAt s levels .startLow 0) s := by
  simpa [UnitCallAt] using reaches_startCall hs hr hq hp

theorem reaches_unit_startHigh (hlen : 18000 ≤ levels.length) : Reaches 18001 (UnitCallAt s levels .startHigh 18000) s := by
  refine (reaches_unit_startLow hs hr hq hp).trans (k := 18000) fun t ht => ?_
  have ended := ht.unitHoldEnd (k := 17999) rfl (by decide) (by simp; omega)
  simpa [UnitCallAt, FsmState.succ] using ended

theorem reaches_unit_hsWaitLow1 (hlen : 18030 ≤ levels.length) :
    Reaches 18031 (UnitCallAt s levels .hsWaitLow1 18030) s := by
  refine (reaches_unit_startHigh hs hr hq hp (by omega)).trans (k := 30) fun t ht => ?_
  have ended := ht.unitHoldEnd (k := 29) rfl (by decide) (by simp; omega)
  simpa [UnitCallAt, FsmState.succ, add_assoc] using ended

end

/-- Settles O53: the call enters START_LOW, START_HIGH and HS_WAIT_LOW1 with steps 1, 18001 and 18031, and between them the
holds go on (`CallAt.unitHold`). -/
theorem startSignalTiming : Obligations.StartSignalTiming := by
  intro s levels hs hr hq hp hlen
  refine ⟨fun n low high => ?_, fun n low high => ?_, ?_⟩
  · have held := (reaches_unit_startLow hs hr hq hp).trans (k := n - 1) fun t ht =>
      ht.unitHold rfl (by decide) (by omega) (by simp; omega)
    rw [Nat.add_sub_cancel' low] at held
    refine held.imp fun t ht => ⟨ht.st, ?_⟩
    obtain ⟨-, drive, -⟩ := lineDriveByState t
    exact drive ht.st
  · have held := (reaches_unit_startHigh hs hr hq hp (by omega)).trans (k := n - 18001) fun t ht =>
      ht.unitHold rfl (by decide) (by omega) (by simp; omega)
    rw [Nat.add_sub_cancel' low] at held
    refine held.imp fun t ht => ⟨ht.st, ?_⟩
    obtain ⟨-, -, drive, -⟩ := lineDriveByState t
    exact drive ht.st
  · refine (reaches_unit_hsWaitLow1 hs hr hq hp hlen).imp fun t ht => ⟨ht.st, ?_, ht.tMark⟩
    exact lineOe_of_awaitedLevel (L := false) (ht.st ▸ rfl)

/-- After none of the steps of the start signal is the block idle. -/
theorem reaches_not_idle {s : State} {levels : List (Bool × Bool)} {n : Nat} (hs : s.st = FsmState.idle.code)
    (hr : s.inp.rst = false) (hq : s.inp.req = true) (hp : s.pending = unitSamples s.inp.now levels)
    (hlen : 18030 ≤ levels.length) (h1 : 1 ≤ n) (hn : n ≤ 18031) : Reaches n (fun t => t.st ≠ 0b0000) s := by
  obtain ⟨low, high, ⟨t, ht, hst, -⟩⟩ := startSignalTiming s levels hs hr hq hp hlen
  obtain h | h | rfl : n ≤ 18000 ∨ (18001 ≤ n ∧ n ≤ 18030) ∨ n = 18031 := by omega
  · exact Reaches.imp (low n h1 h) fun t ⟨ht, _⟩ => by simp [ht]
  · exact Reaches.imp (high n h.1 h.2) fun t ⟨ht, _⟩ => by simp [ht]
  · exact ⟨t, ht, by simp [hst]⟩

/-- Settles O54: during the start signal the block is not idle (`reaches_not_idle`), and after it HS_WAIT_LOW1 polls a high
line for 100 steps and times out with the next (`CallAt.unitTimeout`). -/
theorem silentLineTimesOut : Obligations.SilentLineTimesOut := by
  intro s levels hs hr hq hp hlen hhigh
  have notLow : ∀ l ∈ levels.drop 18030, l.1 ≠ false := fun l hl => by simp [hhigh l (List.mem_of_mem_drop hl)]
  have waiting := reaches_unit_hsWaitLow1 hs hr hq hp (by omega)
  refine ⟨fun n h1 hn => ?_, ?_⟩
  · by_cases h : n ≤ 18031
    · exact reaches_not_idle hs hr hq hp (by omega) h1 h
    · have polled := waiting.trans (k := n - 18031) fun t ht =>
        ht.unitWait rfl notLow (by omega) (by simp; omega)
      rw [Nat.add_sub_cancel' (by omega)] at polled
      exact polled.imp fun t ht => by simp [ht.st, FsmState.code]
  · exact waiting.trans (k := 101) fun t ht => ht.unitTimeout rfl notLow (by simp; omega)

end Sys2Proof.Safety

/-! SUPPORT. How long a call can last: a bound on each state's mark and stay, kept by every step of at most 1 us. -/

namespace Sys2Proof

/-- The longest time after its mark at which a step can still be taken in a state, in microseconds. VALIDATE and CONVERT
have the mark of the last fall. -/
def FsmState.stay : FsmState → Nat
  | .idle => 0
  | .startLow => 18000
  | .startHigh => 30
  | .validate => 1
  | .convert => 2
  | _ => 101

/-- The latest mark of a state after `c` bits, in microseconds after the DECODE. -/
def FsmState.latestMark (c : Nat) : FsmState → Nat
  | .idle | .startLow => 0
  | .startHigh => 18000
  | .hsWaitLow1 => 18030
  | .hsWaitHigh => 18131
  | .hsWaitLow2 => 18232
  | .bitWaitRise => 18333 + 202 * c
  | .bitWaitFall => 18434 + 202 * c
  | .validate | .convert => 26413

end Sys2Proof

namespace Sys2Proof.Safety

open Sys2Proof Sys2Proof.Machine

theorem stay_of_holdTime {n : FsmState} {T : Nat} (h : n.holdTime = some T) : n.stay = T := by
  obtain rfl | rfl := FsmState.eq_of_holdTime h <;> cases h <;> rfl

theorem stay_of_awaitedLevel {n : FsmState} {L : Bool} (h : awaitedLevel n.code = some L) : n.stay = 101 := by
  obtain rfl | rfl | rfl | rfl | rfl := eq_of_awaitedLevel h <;> rfl

theorem stay_pos {n : FsmState} (h : n ≠ .idle) : 1 ≤ n.stay := by
  cases n
  case idle => exact absurd rfl h
  all_goals decide

/-- A state that goes on to its successor does so by the successor's latest mark. -/
theorem latestMark_succ {n : FsmState} (c : Nat) (hv : n ≠ .validate) (hc : n ≠ .convert) (hb : n ≠ .bitWaitFall) :
    n.latestMark c + n.stay ≤ n.succ.latestMark c := by
  cases n
  case validate => exact absurd rfl hv
  case convert => exact absurd rfl hc
  case bitWaitFall => exact absurd rfl hb
  all_goals
    simp only [FsmState.latestMark, FsmState.stay, FsmState.succ]
    omega

/-- With fewer than 40 bits every wait is over by 26413 us after the DECODE. -/
theorem latestMark_of_awaitedLevel {n : FsmState} {L : Bool} {c : Nat} (h : awaitedLevel n.code = some L) (hc : c < 40) :
    n.latestMark c + 101 ≤ 26413 := by
  obtain rfl | rfl | rfl | rfl | rfl := eq_of_awaitedLevel h <;> simp only [FsmState.latestMark] <;> omega

/-- A call since instant `t₀` is in state `n`, entered at `d`, and the coming step may read instant `k`, all on unwrapped
numbers. -/
structure TimedCall (t₀ k : Nat) (n : FsmState) (d : Nat) (s : State) : Prop where
  st : s.st = n.code
  inCall : n ≠ .idle
  inv : Inv s
  tMark : s.tMark = BitVec.ofNat 32 d
  since : d ≤ k
  stay : k ≤ d + n.stay
  mark : d ≤ t₀ + n.latestMark s.bitcnt.toNat

/-- The call since `t₀` has ended with the step that read instant `k`, in time for its outcome. -/
structure EndedAt (t₀ k : Nat) (t : State) : Prop where
  st : t.st = 0b0000
  done : t.done = true
  outcome : t.outcome ≠ .none
  bound : k ≤ t₀ + 26415
  checksum : t.outcome = .checksum → k ≤ t₀ + 26414
  timeout : t.outcome = .timeout → k ≤ t₀ + 26413

/-- R53, R152: the time waited is the difference of the instants, across a wrap of the clock. -/
theorem waited_of_instants {s : State} {d k : Nat} (hm : s.tMark = BitVec.ofNat 32 d) (hn : s.inp.now = BitVec.ofNat 32 k)
    (hdk : d ≤ k) (hsmall : k - d < 2 ^ 32) : waited s = k - d := by
  obtain ⟨-, elapsed, -⟩ := pulseDurationAndBit
  have now : BitVec.ofNat 32 k = BitVec.ofNat 32 d + BitVec.ofNat 32 (k - d) := by
    rw [← BitVec.ofNat_add, Nat.add_sub_cancel' hdk]
  rw [waited, hm, hn, now]
  exact elapsed _ _ hsmall

section
variable {t₀ k d : Nat} {n : FsmState} {s u : State}

/-- A step that writes `done <- 0` alone, before the state's time is over. -/
theorem TimedCall.polled (h : TimedCall t₀ k n d s) (hw : k < d + n.stay) {k' : Nat} (hk : k ≤ k') (hk' : k' ≤ k + 1) :
    TimedCall t₀ k' n d s.clearDone :=
  ⟨h.st, h.inCall, inv_clearDone h.inv, h.tMark, h.since.trans hk, by omega, h.mark⟩

/-- A step that marks its instant and goes on to a state `m` of the call that is not entered too late. -/
theorem TimedCall.marked {m : FsmState} {u : State} (hst : u.st = m.code) (hm : m ≠ .idle) (hinv : Inv u)
    (hmark : u.tMark = BitVec.ofNat 32 k) (hlate : k ≤ t₀ + m.latestMark u.bitcnt.toNat) {k' : Nat} (hk : k ≤ k')
    (hk' : k' ≤ k + 1) : TimedCall t₀ k' m k u :=
  ⟨hst, hm, hinv, hmark, hk, hk'.trans (Nat.add_le_add_left (stay_pos hm) k), hlate⟩

/-- R120, R121: going on to the successor. -/
theorem TimedCall.enteredSucc (h : TimedCall t₀ k n d s) (hnow : s.inp.now = BitVec.ofNat 32 k) (hv : n ≠ .validate)
    (hc : n ≠ .convert) (hb : n ≠ .bitWaitFall) {k' : Nat} (hk : k ≤ k') (hk' : k' ≤ k + 1) :
    TimedCall t₀ k' n.succ k (s.clearDone.enter n.succ) := by
  have late : k ≤ t₀ + n.succ.latestMark s.bitcnt.toNat := by
    have := latestMark_succ s.bitcnt.toNat hv hc hb
    have := h.stay
    have := h.mark
    omega
  exact .marked rfl (succ_ne_idle h.inCall) (inv_enter_succ h.st h.inCall h.inv) hnow late hk hk'

/-- R151: the end of a pulse goes on to BIT_WAIT_RISE or, with the 40th bit, to VALIDATE. -/
theorem TimedCall.pulseEnded (h : TimedCall t₀ k .bitWaitFall d s) (hnow : s.inp.now = BitVec.ofNat 32 k) :
    ∃ m, ∀ k', k ≤ k' → k' ≤ k + 1 → TimedCall t₀ k' m k s.clearDone.endPulse := by
  obtain ⟨clear, bits⟩ := (inv_iff_inCall h.st h.inCall).1 h.inv
  have legal := inv_endPulse clear bits
  obtain ⟨few, -⟩ := bits
  have count : s.clearDone.endPulse.bitcnt.toNat = s.bitcnt.toNat + 1 := by
    change (s.bitcnt + 1).toNat = s.bitcnt.toNat + 1
    bv_omega
  have stay := h.stay
  have mark := h.mark
  simp only [FsmState.stay, FsmState.latestMark] at stay mark
  obtain ⟨hst, -⟩ | ⟨hst, -⟩ := endPulse_edge (s := s.clearDone) few
  · refine ⟨.bitWaitRise, fun k' hk hk' => .marked hst nofun legal hnow ?_ hk hk'⟩
    simp only [FsmState.latestMark, count]
    omega
  · refine ⟨.validate, fun k' hk hk' => .marked hst nofun legal hnow ?_ hk hk'⟩
    simp only [FsmState.latestMark]
    omega

/-- A move of the row ends the call in time, or leaves it in time for a step at most 1 us later. -/
theorem TimedCall.move (h : TimedCall t₀ k n d s) (hnow : s.inp.now = BitVec.ofNat 32 k) (hm : RowMove s n u) :
    EndedAt t₀ k u ∨ ∃ m d', ∀ k', k ≤ k' → k' ≤ k + 1 → TimedCall t₀ k' m d' u := by
  have since := h.since
  have stay := h.stay
  have mark := h.mark
  have short : n.stay ≤ 18000 := by cases n <;> decide
  have waited_eq : waited s = k - d := waited_of_instants h.tMark hnow since (by omega)
  cases hm with
  | idleHold | startCall => exact absurd rfl h.inCall
  | holdPoll hT hw =>
    have := stay_of_holdTime hT
    exact .inr ⟨n, d, fun k' => h.polled (by omega)⟩
  | holdEnd hT =>
    obtain rfl | rfl := FsmState.eq_of_holdTime hT <;>
      exact .inr ⟨_, k, fun k' => h.enteredSucc hnow nofun nofun nofun⟩
  | waitPoll hL hl hw =>
    have := stay_of_awaitedLevel hL
    exact .inr ⟨n, d, fun k' => h.polled (by omega)⟩
  | waitTimeout hL =>
    obtain ⟨-, bits⟩ := (inv_iff_inCall h.st h.inCall).1 h.inv
    have := stay_of_awaitedLevel hL
    have := latestMark_of_awaitedLevel hL (bitcnt_lt_of_awaitedLevel hL bits)
    exact .inl ⟨rfl, rfl, nofun, by omega, nofun, fun _ => by omega⟩
  | waitMatch hL hf =>
    obtain ⟨hv, hc⟩ := ne_of_awaitedLevel hL
    exact .inr ⟨_, k, fun k' => h.enteredSucc hnow hv hc hf⟩
  | bitEnd =>
    obtain ⟨m, hm⟩ := h.pulseEnded hnow
    exact .inr ⟨m, k, hm⟩
  | validated hc =>
    have legal := RowMove.keeps_inv h.st h.inv (.validated hc)
    simp only [FsmState.stay, FsmState.latestMark] at stay mark
    exact .inr ⟨.convert, d, fun k' hk hk' =>
      ⟨rfl, nofun, legal, h.tMark, by omega, by simp only [FsmState.stay]; omega, mark⟩⟩
  | rejected =>
    simp only [FsmState.stay, FsmState.latestMark] at stay mark
    exact .inl ⟨rfl, rfl, nofun, by omega, fun _ => by omega, nofun⟩
  | published =>
    simp only [FsmState.stay, FsmState.latestMark] at stay mark
    exact .inl ⟨rfl, rfl, nofun, by omega, nofun, nofun⟩

end
/-- The environment's next sample is no part of a call's timing. -/
theorem TimedCall.presentNext {t₀ k d : Nat} {n : FsmState} {s : State} (h : TimedCall t₀ k n d s) :
    TimedCall t₀ k n d s.presentNext :=
  ⟨by simp [h.st], h.inCall, inv_presentNext.2 h.inv, by simp [h.tMark], h.since, h.stay, by simpa using h.mark⟩

theorem EndedAt.presentNext {t₀ k : Nat} {s : State} (h : EndedAt t₀ k s) : EndedAt t₀ k s.presentNext :=
  ⟨by simpa using h.st, by simpa using h.done, by simpa using h.outcome, h.bound, by simpa using h.checksum,
    by simpa using h.timeout⟩

/-- Without reset, a step ends the call in time, or leaves it in time for a step at most 1 us later. -/
theorem TimedCall.step {t₀ k d : Nat} {n : FsmState} {s : State} (h : TimedCall t₀ k n d s) (hr : s.inp.rst = false)
    (hnow : s.inp.now = BitVec.ofNat 32 k) :
    ∃ t, step s = .next t ∧
      (EndedAt t₀ k t ∨ ∃ m d', ∀ k', k ≤ k' → k' ≤ k + 1 → TimedCall t₀ k' m d' t) := by
  obtain ⟨u, hu⟩ := exec_next (n.row s.inp.req) s
  refine ⟨u.presentNext, by rw [step_row hr h.st, hu]; rfl, ?_⟩
  obtain ended | ⟨m, d', timed⟩ := h.move hnow (rowMove_of_exec hu)
  · exact .inl ended.presentNext
  · exact .inr ⟨m, d', fun k' hk hk' => (timed k' hk hk').presentNext⟩

/-- R25, R26, R28: busy, with no outcome yet. -/
def Busy (s : State) : Prop := s.st ≠ 0b0000 ∧ s.done = false ∧ s.outcome = .none

theorem TimedCall.busy {t₀ k d : Nat} {n : FsmState} {s : State} (h : TimedCall t₀ k n d s) : Busy s := by
  obtain ⟨clear, -⟩ := (inv_iff_inCall h.st h.inCall).1 h.inv
  exact ⟨fun h0 => h.inCall (FsmState.code_inj.1 (h.st.symm.trans h0)), clear.done, clear.outcome⟩

/-- Every state's stay is over by 26415 us after the DECODE. -/
theorem latestMark_add_stay_le {s : State} {n : FsmState} (bits : BitsLegalAt s n) :
    n.latestMark s.bitcnt.toNat + n.stay ≤ 26415 := by
  cases n
  case bitWaitRise | bitWaitFall =>
    obtain ⟨few, -⟩ := bits
    simp only [FsmState.latestMark, FsmState.stay]
    omega
  all_goals
    simp only [FsmState.latestMark, FsmState.stay]
    decide

theorem TimedCall.instant_le {t₀ k d : Nat} {n : FsmState} {s : State} (h : TimedCall t₀ k n d s) : k ≤ t₀ + 26415 := by
  obtain ⟨-, bits⟩ := (inv_iff_inCall h.st h.inCall).1 h.inv
  have := latestMark_add_stay_le bits
  have := h.stay
  have := h.mark
  omega

/-! ### Sampled runs -/

/-- The first of the sampled instants. -/
theorem SampledAt.cons {k : Nat} {ks : List Nat} {xs : List Inputs} (h : SampledAt (k :: ks) xs) :
    ∃ x xs', xs = x :: xs' ∧ x.rst = false ∧ x.now = BitVec.ofNat 32 k ∧ SampledAt ks xs' := by
  obtain ⟨hnow, hr⟩ := h
  cases xs with
  | nil => cases hnow
  | cons x xs =>
    simp only [List.map_cons, List.cons.injEq, List.all_cons, Bool.and_eq_true, Bool.not_eq_true'] at hnow hr
    exact ⟨x, xs, rfl, hr.1, hnow.1, hnow.2, hr.2⟩

/-- A step under the first sample, and what the samples are after it. -/
theorem TimedCall.sampledStep {t₀ k d : Nat} {n : FsmState} {s : State} {ks : List Nat} {xs : List Inputs}
    (h : TimedCall t₀ k n d s) (hx : Supplies xs s) (hat : SampledAt (k :: ks) xs) :
    ∃ t xs', Machine.step s = .next t ∧ Supplies xs' t ∧ SampledAt ks xs' ∧
      (EndedAt t₀ k t ∨ ∃ m d', ∀ k', k ≤ k' → k' ≤ k + 1 → TimedCall t₀ k' m d' t) := by
  obtain ⟨x, xs', rfl, hr, hnow, hat'⟩ := hat.cons
  obtain ⟨t, ht, result⟩ := h.step (hx.inp_eq ▸ hr) (hx.inp_eq ▸ hnow)
  exact ⟨t, xs', ht, hx.step ht, hat', result⟩

/-- The call ends with the step that reads one of the instants `ks`, in time for its outcome, and is busy before. -/
def EndsWithin (t₀ : Nat) (ks : List Nat) (s : State) : Prop :=
  ∃ j k, ks[j]? = some k ∧ Reaches (j + 1) (EndedAt t₀ k) s ∧ ∀ m ≤ j, Reaches m Busy s

section
variable {t₀ k : Nat} {s t : State} {ks : List Nat}

theorem EndsWithin.now (busy : Busy s) (ht : step s = .next t) (ended : EndedAt t₀ k t) : EndsWithin t₀ (k :: ks) s := by
  refine ⟨0, k, rfl, .one ht ended, fun m hm => ?_⟩
  obtain rfl := Nat.le_zero.1 hm
  exact .zero busy

theorem EndsWithin.later (busy : Busy s) (ht : step s = .next t) (h : EndsWithin t₀ ks t) :
    EndsWithin t₀ (k :: ks) s := by
  obtain ⟨j, k', hj, ends, busyAfter⟩ := h
  refine ⟨j + 1, k', hj, .step ht ends, fun m hm => ?_⟩
  cases m with
  | zero => exact .zero busy
  | succ m => exact .step ht (busyAfter m (Nat.le_of_succ_le_succ hm))

end

/-- A call ends with one of the samples, when they reach an instant 26415 us after the DECODE in steps of at most 1 us:
a call that went on after that instant would break `TimedCall.instant_le`. -/
theorem TimedCall.ends {t₀ k d K : Nat} {n : FsmState} {s : State} {ks : List Nat} {xs : List Inputs}
    (h : TimedCall t₀ k n d s) (hx : Supplies xs s) (hat : SampledAt (k :: ks) xs)
    (hclock : clockNeverDecreases (k :: ks) = true) (hstep : samplingPremise (k :: ks) = true) (hK : K ∈ k :: ks)
    (hlate : t₀ + 26415 ≤ K) : EndsWithin t₀ (k :: ks) s := by
  induction ks generalizing k n d s xs with
  | nil =>
    obtain ⟨t, xs', ht, -, -, ended | ⟨m, d', timed⟩⟩ := h.sampledStep hx hat
    · exact .now h.busy ht ended
    · have early := (timed (k + 1) (Nat.le_succ k) le_rfl).instant_le
      have := List.mem_singleton.1 hK
      omega
  | cons k₁ ks ih =>
    obtain ⟨t, xs', ht, hx', hat', ended | ⟨m, d', timed⟩⟩ := h.sampledStep hx hat
    · exact .now h.busy ht ended
    · have early := (timed (k + 1) (Nat.le_succ k) le_rfl).instant_le
      have later : K ∈ k₁ :: ks := (List.mem_cons.1 hK).resolve_left (by omega)
      simp only [clockNeverDecreases, samplingPremise, Bool.and_eq_true, decide_eq_true_iff] at hclock hstep
      obtain ⟨notBack, hclock⟩ := hclock
      obtain ⟨oneMore, hstep⟩ := hstep
      exact .later h.busy ht (ih (timed k₁ notBack oneMore) hx' hat' hclock hstep later)

/-- R237, R238: a call ends with one of its samples, when their instants never decrease, are at most 1 us apart and reach
26415 us after the DECODE; it is busy from its DECODE until then. -/
theorem callEnds {s : State} {t₀ K : Nat} {ts : List Nat} (hs : s.st = FsmState.idle.code) (hr : s.inp.rst = false)
    (hq : s.inp.req = true) (hnow : s.inp.now = BitVec.ofNat 32 t₀) (hat : SampledAt ts s.pending)
    (hclock : clockNeverDecreases (t₀ :: ts) = true) (hstep : samplingPremise (t₀ :: ts) = true) (hK : K ∈ ts)
    (hlate : t₀ + 26415 ≤ K) :
    ∃ j k, ts[j]? = some k ∧ Reaches (j + 2) (EndedAt t₀ k) s ∧ ∀ m, 1 ≤ m → m ≤ j + 1 → Reaches m Busy s := by
  obtain ⟨t, ht, start⟩ := reaches_startCall hs hr hq rfl
  cases ts with
  | nil => cases hK
  | cons k₁ ks =>
    simp only [clockNeverDecreases, samplingPremise, Bool.and_eq_true, decide_eq_true_iff] at hclock hstep
    obtain ⟨notBack, hclock⟩ := hclock
    obtain ⟨oneMore, hstep⟩ := hstep
    have timed : TimedCall t₀ k₁ .startLow t₀ t :=
      ⟨start.st, nofun, start.inv, start.tMark.trans hnow, notBack, by simp only [FsmState.stay]; omega,
        Nat.le_add_right _ _⟩
    obtain ⟨j, k, hj, ends, busy⟩ := timed.ends start.samples hat hclock hstep hK hlate
    have first : Reaches 1 (· = t) s := ⟨t, ht, rfl⟩
    refine ⟨j, k, hj, ?_, fun m low high => ?_⟩
    · rw [Nat.add_comm j 2, Nat.add_assoc 1 1 j]
      exact first.trans (by rintro _ rfl; rwa [Nat.add_comm 1 j])
    · rw [← Nat.add_sub_cancel' low]
      exact first.trans (by rintro _ rfl; exact busy _ (by omega))

/-- Settles O57: the call ends with one of the samples (`callEnds`), the one of index `j` being read by step `j + 2`. -/
theorem callEndsWhenClockAdvances : Obligations.CallEndsWhenClockAdvances := by
  intro s t₀ ts hs hr hq hnow hat hclock hstep hK
  obtain ⟨j, k, hj, ⟨t, ht, ended⟩, -⟩ := callEnds hs hr hq hnow hat hclock hstep hK (by omega)
  obtain ⟨hlen, -⟩ := List.getElem?_eq_some_iff.1 hj
  exact ⟨j + 2, t, by omega, ht, ended.st, ended.done, ended.outcome⟩

/-! ### One step per microsecond -/

/-- A unit clock reads consecutive instants. -/
theorem sampledAt_unitSamples (t₀ : Nat) (ls : List (Bool × Bool)) :
    SampledAt (List.range' (t₀ + 1) ls.length) (unitSamples (BitVec.ofNat 32 t₀) ls) := by
  refine ⟨?_, unitSamples_noReset _ _⟩
  induction ls generalizing t₀ with
  | nil => rfl
  | cons l ls ih =>
    have next : BitVec.ofNat 32 (t₀ + 1) = BitVec.ofNat 32 t₀ + 1 := BitVec.ofNat_add _ _
    rw [List.length_cons, List.range'_succ, unitSamples, List.map_cons, List.map_cons, ← next, ih]

/-- Settles O56: step `j + 2` ends the call at instant `j + 1` after the DECODE (`callEnds`), within the bounds of
`EndedAt`, and not during the start signal (`startSignalTiming`). -/
theorem callEndsInBound : Obligations.CallEndsInBound := by
  intro s levels hs hr hq hp hlen
  have hnow : s.inp.now = BitVec.ofNat 32 s.inp.now.toNat := by simp
  obtain ⟨hclock, hstep⟩ := premises_range' s.inp.now.toNat levels.length
  have sampled : SampledAt (List.range' (s.inp.now.toNat + 1) levels.length) s.pending := by
    have := sampledAt_unitSamples s.inp.now.toNat levels
    rwa [← hnow, ← hp] at this
  have reached : s.inp.now.toNat + 26415 ∈ List.range' (s.inp.now.toNat + 1) levels.length :=
    List.mem_range'_1.2 ⟨by omega, by omega⟩
  obtain ⟨j, k, hj, ⟨t, ht, ended⟩, busy⟩ := callEnds hs hr hq hnow sampled hclock hstep reached le_rfl
  obtain ⟨_, instant⟩ := List.getElem?_eq_some_iff.1 hj
  rw [List.getElem_range'] at instant
  have notSooner : 18031 < j + 2 := by
    by_contra h
    obtain ⟨u, hu, notIdle⟩ := reaches_not_idle hs hr hq hp (by omega) (Nat.succ_pos (j + 1)) (Nat.le_of_not_lt h)
    cases hu.symm.trans ht
    exact notIdle ended.st
  have bound := ended.bound
  refine ⟨j + 2, t, notSooner, by omega, ht, ended.st, ended.done, ended.outcome, fun hc => ?_, fun ho => ?_,
    fun m h1 hm => busy m h1 (by omega)⟩
  · have := ended.checksum hc
    omega
  · have := ended.timeout ho
    omega

end Sys2Proof.Safety
